-- ==== Sys2Proof/Word.lean ====
section
/-! DEFINITION. The two word types of the core: `Word`, the spec's "8-bit unsigned value", and `Address`, its "16-bit
unsigned value" (00_scope R5). Arithmetic on them wraps modulo 256 and modulo 65536, as R5 says. -/

namespace Sys2Proof

/-- "Word: an 8-bit unsigned value" (00_scope R4 `WORD_BITS`, R5): registers and memory bytes. -/
abbrev Word := BitVec 8

/-- "Address: a 16-bit unsigned value" (00_scope R4 `ADDR_BITS`, R5): the program counter and every address. -/
abbrev Address := BitVec 16

end Sys2Proof
end

