-- ==== Sys2Proof/Syntax.lean ====
section
/-! DEFINITION. The instructions: one constructor for each of the 98 rows of spec/opcode_table.json (30_encoding R56, R57),
its name the row's mnemonic followed by the row's format. A constructor carries the operand bits its format has (30 R51):
`d`, the operand byte, or `a`, the 16-bit operand assembled from the bytes `l` and `h` (30 R52); an Implied row carries none. -/

namespace Sys2Proof

/-- An instruction of the core. -/
inductive Instr where
  -- `lda`: R90
  /-- `lda ($nn,x)`, opcode 0xA1. -/
  | ldaIzx (d : Word)
  /-- `lda ($nn),y`, opcode 0xB1. -/
  | ldaIzy (d : Word)
  /-- `lda $nn`, opcode 0xA5. -/
  | ldaZp (d : Word)
  /-- `lda $nn,x`, opcode 0xB5. -/
  | ldaZpx (d : Word)
  /-- `lda #$nn`, opcode 0xA9. -/
  | ldaImm (d : Word)
  /-- `lda $nnnn,y`, opcode 0xB9. -/
  | ldaAby (a : Address)
  /-- `lda $nnnn`, opcode 0xAD. -/
  | ldaAbs (a : Address)
  /-- `lda $nnnn,x`, opcode 0xBD. -/
  | ldaAbx (a : Address)
  -- `ldx`: R91
  /-- `ldx $nn`, opcode 0xA6. -/
  | ldxZp (d : Word)
  /-- `ldx #$nn`, opcode 0xA2. -/
  | ldxImm (d : Word)
  /-- `ldx $nnnn`, opcode 0xAE. -/
  | ldxAbs (a : Address)
  -- `ldy`: R92
  /-- `ldy $nn`, opcode 0xA4. -/
  | ldyZp (d : Word)
  /-- `ldy $nn,x`, opcode 0xB4. -/
  | ldyZpx (d : Word)
  /-- `ldy #$nn`, opcode 0xA0. -/
  | ldyImm (d : Word)
  /-- `ldy $nnnn`, opcode 0xAC. -/
  | ldyAbs (a : Address)
  /-- `ldy $nnnn,x`, opcode 0xBC. -/
  | ldyAbx (a : Address)
  -- `sta`: R93
  /-- `sta ($nn,x)`, opcode 0x81. -/
  | staIzx (d : Word)
  /-- `sta ($nn),y`, opcode 0x91. -/
  | staIzy (d : Word)
  /-- `sta $nn`, opcode 0x85. -/
  | staZp (d : Word)
  /-- `sta $nn,x`, opcode 0x95. -/
  | staZpx (d : Word)
  /-- `sta $nnnn,y`, opcode 0x99. -/
  | staAby (a : Address)
  /-- `sta $nnnn`, opcode 0x8D. -/
  | staAbs (a : Address)
  /-- `sta $nnnn,x`, opcode 0x9D. -/
  | staAbx (a : Address)
  -- `stx`: R94
  /-- `stx $nn`, opcode 0x86. -/
  | stxZp (d : Word)
  /-- `stx $nnnn`, opcode 0x8E. -/
  | stxAbs (a : Address)
  -- `sty`: R95
  /-- `sty $nn`, opcode 0x84. -/
  | styZp (d : Word)
  /-- `sty $nn,x`, opcode 0x94. -/
  | styZpx (d : Word)
  /-- `sty $nnnn`, opcode 0x8C. -/
  | styAbs (a : Address)
  -- `tax`: R96
  /-- `tax`, opcode 0xAA. -/
  | tax
  -- `tay`: R97
  /-- `tay`, opcode 0xA8. -/
  | tay
  -- `txa`: R98
  /-- `txa`, opcode 0x8A. -/
  | txa
  -- `tya`: R99
  /-- `tya`, opcode 0x98. -/
  | tya
  -- `tsx`: R100
  /-- `tsx`, opcode 0xBA. -/
  | tsx
  -- `txs`: R101
  /-- `txs`, opcode 0x9A. -/
  | txs
  -- `inc`: R110
  /-- `inc $nn`, opcode 0xE6. -/
  | incZp (d : Word)
  /-- `inc $nn,x`, opcode 0xF6. -/
  | incZpx (d : Word)
  /-- `inc $nnnn`, opcode 0xEE. -/
  | incAbs (a : Address)
  /-- `inc $nnnn,x`, opcode 0xFE. -/
  | incAbx (a : Address)
  -- `inx`: R111
  /-- `inx`, opcode 0xE8. -/
  | inx
  -- `iny`: R112
  /-- `iny`, opcode 0xC8. -/
  | iny
  -- `dex`: R113
  /-- `dex`, opcode 0xCA. -/
  | dex
  -- `dey`: R114
  /-- `dey`, opcode 0x88. -/
  | dey
  -- `eor`: R120
  /-- `eor ($nn,x)`, opcode 0x41. -/
  | eorIzx (d : Word)
  /-- `eor ($nn),y`, opcode 0x51. -/
  | eorIzy (d : Word)
  /-- `eor $nn`, opcode 0x45. -/
  | eorZp (d : Word)
  /-- `eor $nn,x`, opcode 0x55. -/
  | eorZpx (d : Word)
  /-- `eor #$nn`, opcode 0x49. -/
  | eorImm (d : Word)
  /-- `eor $nnnn,y`, opcode 0x59. -/
  | eorAby (a : Address)
  /-- `eor $nnnn`, opcode 0x4D. -/
  | eorAbs (a : Address)
  /-- `eor $nnnn,x`, opcode 0x5D. -/
  | eorAbx (a : Address)
  -- `ora`: R121
  /-- `ora ($nn,x)`, opcode 0x01. -/
  | oraIzx (d : Word)
  /-- `ora ($nn),y`, opcode 0x11. -/
  | oraIzy (d : Word)
  /-- `ora $nn`, opcode 0x05. -/
  | oraZp (d : Word)
  /-- `ora $nn,x`, opcode 0x15. -/
  | oraZpx (d : Word)
  /-- `ora #$nn`, opcode 0x09. -/
  | oraImm (d : Word)
  /-- `ora $nnnn,y`, opcode 0x19. -/
  | oraAby (a : Address)
  /-- `ora $nnnn`, opcode 0x0D. -/
  | oraAbs (a : Address)
  /-- `ora $nnnn,x`, opcode 0x1D. -/
  | oraAbx (a : Address)
  -- `adc`: R125
  /-- `adc ($nn,x)`, opcode 0x61. -/
  | adcIzx (d : Word)
  /-- `adc ($nn),y`, opcode 0x71. -/
  | adcIzy (d : Word)
  /-- `adc $nn`, opcode 0x65. -/
  | adcZp (d : Word)
  /-- `adc $nn,x`, opcode 0x75. -/
  | adcZpx (d : Word)
  /-- `adc #$nn`, opcode 0x69. -/
  | adcImm (d : Word)
  /-- `adc $nnnn,y`, opcode 0x79. -/
  | adcAby (a : Address)
  /-- `adc $nnnn`, opcode 0x6D. -/
  | adcAbs (a : Address)
  /-- `adc $nnnn,x`, opcode 0x7D. -/
  | adcAbx (a : Address)
  -- `sbc`: R126
  /-- `sbc ($nn,x)`, opcode 0xE1. -/
  | sbcIzx (d : Word)
  /-- `sbc ($nn),y`, opcode 0xF1. -/
  | sbcIzy (d : Word)
  /-- `sbc $nn`, opcode 0xE5. -/
  | sbcZp (d : Word)
  /-- `sbc $nn,x`, opcode 0xF5. -/
  | sbcZpx (d : Word)
  /-- `sbc #$nn`, opcode 0xE9. -/
  | sbcImm (d : Word)
  /-- `sbc $nnnn,y`, opcode 0xF9. -/
  | sbcAby (a : Address)
  /-- `sbc $nnnn`, opcode 0xED. -/
  | sbcAbs (a : Address)
  /-- `sbc $nnnn,x`, opcode 0xFD. -/
  | sbcAbx (a : Address)
  -- `rol`: R135
  /-- `rol $nn`, opcode 0x26. -/
  | rolZp (d : Word)
  /-- `rol $nn,x`, opcode 0x36. -/
  | rolZpx (d : Word)
  /-- `rol $nnnn`, opcode 0x2E. -/
  | rolAbs (a : Address)
  /-- `rol $nnnn,x`, opcode 0x3E. -/
  | rolAbx (a : Address)
  -- `ror`: R136
  /-- `ror $nn`, opcode 0x66. -/
  | rorZp (d : Word)
  /-- `ror $nn,x`, opcode 0x76. -/
  | rorZpx (d : Word)
  /-- `ror $nnnn`, opcode 0x6E. -/
  | rorAbs (a : Address)
  /-- `ror $nnnn,x`, opcode 0x7E. -/
  | rorAbx (a : Address)
  -- `asl`: R137
  /-- `asl $nn`, opcode 0x06. -/
  | aslZp (d : Word)
  /-- `asl $nn,x`, opcode 0x16. -/
  | aslZpx (d : Word)
  /-- `asl $nnnn`, opcode 0x0E. -/
  | aslAbs (a : Address)
  /-- `asl $nnnn,x`, opcode 0x1E. -/
  | aslAbx (a : Address)
  -- `lsr`: R138
  /-- `lsr $nn`, opcode 0x46. -/
  | lsrZp (d : Word)
  /-- `lsr $nn,x`, opcode 0x56. -/
  | lsrZpx (d : Word)
  /-- `lsr $nnnn`, opcode 0x4E. -/
  | lsrAbs (a : Address)
  /-- `lsr $nnnn,x`, opcode 0x5E. -/
  | lsrAbx (a : Address)
  -- `sec`: R145
  /-- `sec`, opcode 0x38. -/
  | sec
  -- `clc`: R146
  /-- `clc`, opcode 0x18. -/
  | clc
  -- `sed`: R147
  /-- `sed`, opcode 0xF8. -/
  | sed
  -- `cld`: R148
  /-- `cld`, opcode 0xD8. -/
  | cld
  -- `sei`: R149
  /-- `sei`, opcode 0x78. -/
  | sei
  -- `cli`: R150
  /-- `cli`, opcode 0x58. -/
  | cli
  -- `clv`: R151
  /-- `clv`, opcode 0xB8. -/
  | clv
  -- `nop`: R152
  /-- `nop`, opcode 0xEA. -/
  | nop
  deriving DecidableEq, Repr

end Sys2Proof
end

