-- ==== Sys2Proof/WellFormed.lean ====
section
/-! DEFINITION. The form of an instruction as the spec's tables name it (mnemonic, addressing mode, operand), the check that
such a form exists (30_encoding R57: "`-` means the mnemonic has no opcode with that mode"; R51: each format's operand
bytes), and the form of each constructor of `Instr`. -/

namespace Sys2Proof

/-- The eight addressing modes of the resolver (40 R82: the set is closed), in the document's order (30 R54), and the
operand-less class Implied (40 R81), which is "not one of the document's eight AddressingMode values". -/
inductive Mode where
  | indexedIndirectX
  | indirectIndexedY
  | zeroPage
  | zeroPageIndexedX
  | immediate
  | absoluteIndexedY
  | absolute
  | absoluteIndexedX
  | implied
  deriving DecidableEq, Repr

/-- How many operand bytes follow the opcode byte in a mode (30 R50, R51). -/
def Mode.operandBytes : Mode → Nat
  | .indexedIndirectX => 1
  | .indirectIndexedY => 1
  | .zeroPage => 1
  | .zeroPageIndexedX => 1
  | .immediate => 1
  | .absoluteIndexedY => 2
  | .absolute => 2
  | .absoluteIndexedX => 2
  | .implied => 0

/-- "instruction width (bytes including opcode)" (30 R50). -/
def Mode.width (m : Mode) : Nat := 1 + m.operandBytes

/-- The 33 mnemonics of the core (00_scope R2, 47 R162). -/
inductive Mnemonic where
  | lda
  | ldx
  | ldy
  | sta
  | stx
  | sty
  | tax
  | tay
  | txa
  | tya
  | tsx
  | txs
  | inc
  | inx
  | iny
  | dex
  | dey
  | eor
  | ora
  | adc
  | sbc
  | rol
  | ror
  | asl
  | lsr
  | sec
  | clc
  | sed
  | cld
  | sei
  | cli
  | clv
  | nop
  deriving DecidableEq, Repr

/-- The operand an instruction is written with: none, one byte, or one 16-bit word (30 R51, R52). -/
inductive Operand where
  | none
  | byte (d : Word)
  | word (a : Address)
  deriving DecidableEq, Repr

/-- How many bytes an operand takes in the instruction. -/
def Operand.bytes : Operand → Nat
  | .none => 0
  | .byte _ => 1
  | .word _ => 2

/-- The modes in which a mnemonic has an opcode: the cells of 30_encoding R57 that are not `-`. -/
def Mnemonic.modes : Mnemonic → List Mode
  | .lda => [.indexedIndirectX, .indirectIndexedY, .zeroPage, .zeroPageIndexedX, .immediate, .absoluteIndexedY, .absolute, .absoluteIndexedX]
  | .ldx => [.zeroPage, .immediate, .absolute]
  | .ldy => [.zeroPage, .zeroPageIndexedX, .immediate, .absolute, .absoluteIndexedX]
  | .sta => [.indexedIndirectX, .indirectIndexedY, .zeroPage, .zeroPageIndexedX, .absoluteIndexedY, .absolute, .absoluteIndexedX]
  | .stx => [.zeroPage, .absolute]
  | .sty => [.zeroPage, .zeroPageIndexedX, .absolute]
  | .tax => [.implied]
  | .tay => [.implied]
  | .txa => [.implied]
  | .tya => [.implied]
  | .tsx => [.implied]
  | .txs => [.implied]
  | .inc => [.zeroPage, .zeroPageIndexedX, .absolute, .absoluteIndexedX]
  | .inx => [.implied]
  | .iny => [.implied]
  | .dex => [.implied]
  | .dey => [.implied]
  | .eor => [.indexedIndirectX, .indirectIndexedY, .zeroPage, .zeroPageIndexedX, .immediate, .absoluteIndexedY, .absolute, .absoluteIndexedX]
  | .ora => [.indexedIndirectX, .indirectIndexedY, .zeroPage, .zeroPageIndexedX, .immediate, .absoluteIndexedY, .absolute, .absoluteIndexedX]
  | .adc => [.indexedIndirectX, .indirectIndexedY, .zeroPage, .zeroPageIndexedX, .immediate, .absoluteIndexedY, .absolute, .absoluteIndexedX]
  | .sbc => [.indexedIndirectX, .indirectIndexedY, .zeroPage, .zeroPageIndexedX, .immediate, .absoluteIndexedY, .absolute, .absoluteIndexedX]
  | .rol => [.zeroPage, .zeroPageIndexedX, .absolute, .absoluteIndexedX]
  | .ror => [.zeroPage, .zeroPageIndexedX, .absolute, .absoluteIndexedX]
  | .asl => [.zeroPage, .zeroPageIndexedX, .absolute, .absoluteIndexedX]
  | .lsr => [.zeroPage, .zeroPageIndexedX, .absolute, .absoluteIndexedX]
  | .sec => [.implied]
  | .clc => [.implied]
  | .sed => [.implied]
  | .cld => [.implied]
  | .sei => [.implied]
  | .cli => [.implied]
  | .clv => [.implied]
  | .nop => [.implied]

/-- An instruction as the tables of the spec name it. -/
structure Form where
  mnemonic : Mnemonic
  mode : Mode
  operand : Operand
  deriving DecidableEq, Repr

/-- The combination of mnemonic and mode has an opcode (30 R57, R62: a combination with `-` "does not assemble"). -/
def Form.hasOpcode (f : Form) : Bool := f.mnemonic.modes.contains f.mode

/-- The operand has as many bytes as the mode's format (30 R51). -/
def Form.operandFits (f : Form) : Bool := f.operand.bytes == f.mode.operandBytes

/-- A form is well-formed when it has an opcode and its operand fits its mode. -/
def Form.wellFormed (f : Form) : Bool := f.hasOpcode && f.operandFits

/-- The form of each instruction: its row of spec/opcode_table.json. -/
def Instr.form : Instr → Form
  | .ldaIzx d => ⟨.lda, .indexedIndirectX, .byte d⟩
  | .ldaIzy d => ⟨.lda, .indirectIndexedY, .byte d⟩
  | .ldaZp d => ⟨.lda, .zeroPage, .byte d⟩
  | .ldaZpx d => ⟨.lda, .zeroPageIndexedX, .byte d⟩
  | .ldaImm d => ⟨.lda, .immediate, .byte d⟩
  | .ldaAby a => ⟨.lda, .absoluteIndexedY, .word a⟩
  | .ldaAbs a => ⟨.lda, .absolute, .word a⟩
  | .ldaAbx a => ⟨.lda, .absoluteIndexedX, .word a⟩
  | .ldxZp d => ⟨.ldx, .zeroPage, .byte d⟩
  | .ldxImm d => ⟨.ldx, .immediate, .byte d⟩
  | .ldxAbs a => ⟨.ldx, .absolute, .word a⟩
  | .ldyZp d => ⟨.ldy, .zeroPage, .byte d⟩
  | .ldyZpx d => ⟨.ldy, .zeroPageIndexedX, .byte d⟩
  | .ldyImm d => ⟨.ldy, .immediate, .byte d⟩
  | .ldyAbs a => ⟨.ldy, .absolute, .word a⟩
  | .ldyAbx a => ⟨.ldy, .absoluteIndexedX, .word a⟩
  | .staIzx d => ⟨.sta, .indexedIndirectX, .byte d⟩
  | .staIzy d => ⟨.sta, .indirectIndexedY, .byte d⟩
  | .staZp d => ⟨.sta, .zeroPage, .byte d⟩
  | .staZpx d => ⟨.sta, .zeroPageIndexedX, .byte d⟩
  | .staAby a => ⟨.sta, .absoluteIndexedY, .word a⟩
  | .staAbs a => ⟨.sta, .absolute, .word a⟩
  | .staAbx a => ⟨.sta, .absoluteIndexedX, .word a⟩
  | .stxZp d => ⟨.stx, .zeroPage, .byte d⟩
  | .stxAbs a => ⟨.stx, .absolute, .word a⟩
  | .styZp d => ⟨.sty, .zeroPage, .byte d⟩
  | .styZpx d => ⟨.sty, .zeroPageIndexedX, .byte d⟩
  | .styAbs a => ⟨.sty, .absolute, .word a⟩
  | .tax => ⟨.tax, .implied, .none⟩
  | .tay => ⟨.tay, .implied, .none⟩
  | .txa => ⟨.txa, .implied, .none⟩
  | .tya => ⟨.tya, .implied, .none⟩
  | .tsx => ⟨.tsx, .implied, .none⟩
  | .txs => ⟨.txs, .implied, .none⟩
  | .incZp d => ⟨.inc, .zeroPage, .byte d⟩
  | .incZpx d => ⟨.inc, .zeroPageIndexedX, .byte d⟩
  | .incAbs a => ⟨.inc, .absolute, .word a⟩
  | .incAbx a => ⟨.inc, .absoluteIndexedX, .word a⟩
  | .inx => ⟨.inx, .implied, .none⟩
  | .iny => ⟨.iny, .implied, .none⟩
  | .dex => ⟨.dex, .implied, .none⟩
  | .dey => ⟨.dey, .implied, .none⟩
  | .eorIzx d => ⟨.eor, .indexedIndirectX, .byte d⟩
  | .eorIzy d => ⟨.eor, .indirectIndexedY, .byte d⟩
  | .eorZp d => ⟨.eor, .zeroPage, .byte d⟩
  | .eorZpx d => ⟨.eor, .zeroPageIndexedX, .byte d⟩
  | .eorImm d => ⟨.eor, .immediate, .byte d⟩
  | .eorAby a => ⟨.eor, .absoluteIndexedY, .word a⟩
  | .eorAbs a => ⟨.eor, .absolute, .word a⟩
  | .eorAbx a => ⟨.eor, .absoluteIndexedX, .word a⟩
  | .oraIzx d => ⟨.ora, .indexedIndirectX, .byte d⟩
  | .oraIzy d => ⟨.ora, .indirectIndexedY, .byte d⟩
  | .oraZp d => ⟨.ora, .zeroPage, .byte d⟩
  | .oraZpx d => ⟨.ora, .zeroPageIndexedX, .byte d⟩
  | .oraImm d => ⟨.ora, .immediate, .byte d⟩
  | .oraAby a => ⟨.ora, .absoluteIndexedY, .word a⟩
  | .oraAbs a => ⟨.ora, .absolute, .word a⟩
  | .oraAbx a => ⟨.ora, .absoluteIndexedX, .word a⟩
  | .adcIzx d => ⟨.adc, .indexedIndirectX, .byte d⟩
  | .adcIzy d => ⟨.adc, .indirectIndexedY, .byte d⟩
  | .adcZp d => ⟨.adc, .zeroPage, .byte d⟩
  | .adcZpx d => ⟨.adc, .zeroPageIndexedX, .byte d⟩
  | .adcImm d => ⟨.adc, .immediate, .byte d⟩
  | .adcAby a => ⟨.adc, .absoluteIndexedY, .word a⟩
  | .adcAbs a => ⟨.adc, .absolute, .word a⟩
  | .adcAbx a => ⟨.adc, .absoluteIndexedX, .word a⟩
  | .sbcIzx d => ⟨.sbc, .indexedIndirectX, .byte d⟩
  | .sbcIzy d => ⟨.sbc, .indirectIndexedY, .byte d⟩
  | .sbcZp d => ⟨.sbc, .zeroPage, .byte d⟩
  | .sbcZpx d => ⟨.sbc, .zeroPageIndexedX, .byte d⟩
  | .sbcImm d => ⟨.sbc, .immediate, .byte d⟩
  | .sbcAby a => ⟨.sbc, .absoluteIndexedY, .word a⟩
  | .sbcAbs a => ⟨.sbc, .absolute, .word a⟩
  | .sbcAbx a => ⟨.sbc, .absoluteIndexedX, .word a⟩
  | .rolZp d => ⟨.rol, .zeroPage, .byte d⟩
  | .rolZpx d => ⟨.rol, .zeroPageIndexedX, .byte d⟩
  | .rolAbs a => ⟨.rol, .absolute, .word a⟩
  | .rolAbx a => ⟨.rol, .absoluteIndexedX, .word a⟩
  | .rorZp d => ⟨.ror, .zeroPage, .byte d⟩
  | .rorZpx d => ⟨.ror, .zeroPageIndexedX, .byte d⟩
  | .rorAbs a => ⟨.ror, .absolute, .word a⟩
  | .rorAbx a => ⟨.ror, .absoluteIndexedX, .word a⟩
  | .aslZp d => ⟨.asl, .zeroPage, .byte d⟩
  | .aslZpx d => ⟨.asl, .zeroPageIndexedX, .byte d⟩
  | .aslAbs a => ⟨.asl, .absolute, .word a⟩
  | .aslAbx a => ⟨.asl, .absoluteIndexedX, .word a⟩
  | .lsrZp d => ⟨.lsr, .zeroPage, .byte d⟩
  | .lsrZpx d => ⟨.lsr, .zeroPageIndexedX, .byte d⟩
  | .lsrAbs a => ⟨.lsr, .absolute, .word a⟩
  | .lsrAbx a => ⟨.lsr, .absoluteIndexedX, .word a⟩
  | .sec => ⟨.sec, .implied, .none⟩
  | .clc => ⟨.clc, .implied, .none⟩
  | .sed => ⟨.sed, .implied, .none⟩
  | .cld => ⟨.cld, .implied, .none⟩
  | .sei => ⟨.sei, .implied, .none⟩
  | .cli => ⟨.cli, .implied, .none⟩
  | .clv => ⟨.clv, .implied, .none⟩
  | .nop => ⟨.nop, .implied, .none⟩

/-- The mnemonic of an instruction. -/
def Instr.mnemonic (i : Instr) : Mnemonic := i.form.mnemonic

/-- The addressing mode of an instruction. -/
def Instr.mode (i : Instr) : Mode := i.form.mode

/-- The width of an instruction in bytes, opcode included (30 R50). -/
def Instr.width (i : Instr) : Nat := i.mode.width

/-- An instruction is well-formed when its form is. The constructors of `Instr` carry exactly the operand bits their row
has, so every `Instr` is well-formed (Sys2Proof.Laws.InstrWellFormed); the checks bite on a `Form`. -/
def Instr.wellFormed (i : Instr) : Bool := i.form.wellFormed

end Sys2Proof
end

