-- ==== Sys2Proof/Decode.lean ====
section
/-! DEFINITION. Decoding and encoding (30_encoding). The decoder is the opcode map of R56, read row by row (row = high
nibble), applied to the bytes of the instruction stream; it is total, and refuses by name. The encoder after it is written
from R57 (the same map by mnemonic) and R51 (the formats). The closed-form addressing mode of R54 stands beside them. -/

namespace Sys2Proof

/-- `hi :: lo` of two bytes (00_scope section 5): the 16-bit operand, low byte first in memory (30 R52). -/
def joinBytes (h l : Word) : Address := h ++ l

/-- The low byte of a 16-bit operand: byte 1 of its instruction (30 R51). -/
def lowByte (a : Address) : Word := a.extractLsb' 0 8

/-- The high byte of a 16-bit operand: byte 2 of its instruction (30 R51). -/
def highByte (a : Address) : Word := a.extractLsb' 8 8

/-- What an opcode byte says of its instruction before the operand is read: the whole instruction, or the constructor that
awaits one operand byte `d`, or the constructor that awaits the 16-bit operand `h :: l` (30 R51). -/
inductive Shape where
  | implied (i : Instr)
  | byteOperand (f : Word → Instr)
  | wordOperand (f : Address → Instr)

/-- How many operand bytes the shape awaits. -/
def Shape.operandBytes : Shape → Nat
  | .implied _ => 0
  | .byteOperand _ => 1
  | .wordOperand _ => 2

/-- The instruction of a shape with the operand bytes taken from the front of a list, and the rest of the list; none where
the list is too short. The low byte of a 16-bit operand comes first (30 R52). -/
def Shape.fill : Shape → List Word → Option (Instr × List Word)
  | .implied i, rest => some (i, rest)
  | .byteOperand f, d :: rest => some (f d, rest)
  | .wordOperand f, l :: h :: rest => some (f (joinBytes h l), rest)
  | .byteOperand _, [] => none
  | .wordOperand _, [] => none
  | .wordOperand _, [_] => none

/-- One assigned opcode byte and its shape. -/
abbrev OpcodeRow := Word × Shape

/-- The assigned opcodes of high nibble 0x0 (30 R56). -/
def opcodeRows0 : List OpcodeRow :=
  [(0x01, .byteOperand .oraIzx), (0x05, .byteOperand .oraZp), (0x06, .byteOperand .aslZp),
   (0x09, .byteOperand .oraImm), (0x0D, .wordOperand .oraAbs), (0x0E, .wordOperand .aslAbs)]

/-- The assigned opcodes of high nibble 0x1 (30 R56). -/
def opcodeRows1 : List OpcodeRow :=
  [(0x11, .byteOperand .oraIzy), (0x15, .byteOperand .oraZpx), (0x16, .byteOperand .aslZpx),
   (0x18, .implied .clc), (0x19, .wordOperand .oraAby), (0x1D, .wordOperand .oraAbx),
   (0x1E, .wordOperand .aslAbx)]

/-- The assigned opcodes of high nibble 0x2 (30 R56). -/
def opcodeRows2 : List OpcodeRow :=
  [(0x26, .byteOperand .rolZp), (0x2E, .wordOperand .rolAbs)]

/-- The assigned opcodes of high nibble 0x3 (30 R56). -/
def opcodeRows3 : List OpcodeRow :=
  [(0x36, .byteOperand .rolZpx), (0x38, .implied .sec), (0x3E, .wordOperand .rolAbx)]

/-- The assigned opcodes of high nibble 0x4 (30 R56). -/
def opcodeRows4 : List OpcodeRow :=
  [(0x41, .byteOperand .eorIzx), (0x45, .byteOperand .eorZp), (0x46, .byteOperand .lsrZp),
   (0x49, .byteOperand .eorImm), (0x4D, .wordOperand .eorAbs), (0x4E, .wordOperand .lsrAbs)]

/-- The assigned opcodes of high nibble 0x5 (30 R56). -/
def opcodeRows5 : List OpcodeRow :=
  [(0x51, .byteOperand .eorIzy), (0x55, .byteOperand .eorZpx), (0x56, .byteOperand .lsrZpx),
   (0x58, .implied .cli), (0x59, .wordOperand .eorAby), (0x5D, .wordOperand .eorAbx),
   (0x5E, .wordOperand .lsrAbx)]

/-- The assigned opcodes of high nibble 0x6 (30 R56). -/
def opcodeRows6 : List OpcodeRow :=
  [(0x61, .byteOperand .adcIzx), (0x65, .byteOperand .adcZp), (0x66, .byteOperand .rorZp),
   (0x69, .byteOperand .adcImm), (0x6D, .wordOperand .adcAbs), (0x6E, .wordOperand .rorAbs)]

/-- The assigned opcodes of high nibble 0x7 (30 R56). -/
def opcodeRows7 : List OpcodeRow :=
  [(0x71, .byteOperand .adcIzy), (0x75, .byteOperand .adcZpx), (0x76, .byteOperand .rorZpx),
   (0x78, .implied .sei), (0x79, .wordOperand .adcAby), (0x7D, .wordOperand .adcAbx),
   (0x7E, .wordOperand .rorAbx)]

/-- The assigned opcodes of high nibble 0x8 (30 R56). -/
def opcodeRows8 : List OpcodeRow :=
  [(0x81, .byteOperand .staIzx), (0x84, .byteOperand .styZp), (0x85, .byteOperand .staZp),
   (0x86, .byteOperand .stxZp), (0x88, .implied .dey), (0x8A, .implied .txa),
   (0x8C, .wordOperand .styAbs), (0x8D, .wordOperand .staAbs), (0x8E, .wordOperand .stxAbs)]

/-- The assigned opcodes of high nibble 0x9 (30 R56). -/
def opcodeRows9 : List OpcodeRow :=
  [(0x91, .byteOperand .staIzy), (0x94, .byteOperand .styZpx), (0x95, .byteOperand .staZpx),
   (0x98, .implied .tya), (0x99, .wordOperand .staAby), (0x9A, .implied .txs),
   (0x9D, .wordOperand .staAbx)]

/-- The assigned opcodes of high nibble 0xA (30 R56). -/
def opcodeRowsA : List OpcodeRow :=
  [(0xA0, .byteOperand .ldyImm), (0xA1, .byteOperand .ldaIzx), (0xA2, .byteOperand .ldxImm),
   (0xA4, .byteOperand .ldyZp), (0xA5, .byteOperand .ldaZp), (0xA6, .byteOperand .ldxZp),
   (0xA8, .implied .tay), (0xA9, .byteOperand .ldaImm), (0xAA, .implied .tax),
   (0xAC, .wordOperand .ldyAbs), (0xAD, .wordOperand .ldaAbs), (0xAE, .wordOperand .ldxAbs)]

/-- The assigned opcodes of high nibble 0xB (30 R56). -/
def opcodeRowsB : List OpcodeRow :=
  [(0xB1, .byteOperand .ldaIzy), (0xB4, .byteOperand .ldyZpx), (0xB5, .byteOperand .ldaZpx),
   (0xB8, .implied .clv), (0xB9, .wordOperand .ldaAby), (0xBA, .implied .tsx),
   (0xBC, .wordOperand .ldyAbx), (0xBD, .wordOperand .ldaAbx)]

/-- The assigned opcodes of high nibble 0xC (30 R56). -/
def opcodeRowsC : List OpcodeRow :=
  [(0xC8, .implied .iny), (0xCA, .implied .dex)]

/-- The assigned opcodes of high nibble 0xD (30 R56). -/
def opcodeRowsD : List OpcodeRow :=
  [(0xD8, .implied .cld)]

/-- The assigned opcodes of high nibble 0xE (30 R56). -/
def opcodeRowsE : List OpcodeRow :=
  [(0xE1, .byteOperand .sbcIzx), (0xE5, .byteOperand .sbcZp), (0xE6, .byteOperand .incZp),
   (0xE8, .implied .inx), (0xE9, .byteOperand .sbcImm), (0xEA, .implied .nop),
   (0xED, .wordOperand .sbcAbs), (0xEE, .wordOperand .incAbs)]

/-- The assigned opcodes of high nibble 0xF (30 R56). -/
def opcodeRowsF : List OpcodeRow :=
  [(0xF1, .byteOperand .sbcIzy), (0xF5, .byteOperand .sbcZpx), (0xF6, .byteOperand .incZpx),
   (0xF8, .implied .sed), (0xF9, .wordOperand .sbcAby), (0xFD, .wordOperand .sbcAbx),
   (0xFE, .wordOperand .incAbx)]

/-- The complete opcode map (30 R56): 98 rows. -/
def opcodeTable : List OpcodeRow :=
  opcodeRows0 ++ opcodeRows1 ++ opcodeRows2 ++ opcodeRows3 ++ opcodeRows4 ++ opcodeRows5 ++ opcodeRows6 ++ opcodeRows7 ++
  opcodeRows8 ++ opcodeRows9 ++ opcodeRowsA ++ opcodeRowsB ++ opcodeRowsC ++ opcodeRowsD ++ opcodeRowsE ++ opcodeRowsF

/-- "row <- lookup op in the table of rule R56" (30 R53): decoding reads no state but the opcode byte. -/
def decodeOpcode (op : Word) : Option Shape := opcodeTable.lookup op

/-- Why a list of bytes is not an instruction. -/
inductive DecodeError where
  /-- The list is empty. -/
  | noBytes
  /-- The opcode byte is one of the 158 unassigned ones (30 R59, R60). -/
  | unrecognizedOpcode (op : Word)
  /-- The opcode is assigned and the list ends before its operand does; a fetch never meets this (log entry 9). -/
  | truncated (op : Word)
  deriving DecidableEq, Repr

/-- The instruction at the front of a list of bytes and the rest of the list, or the reason there is none (30 R53, R61). -/
def decode : List Word → Except DecodeError (Instr × List Word)
  | [] => .error .noBytes
  | op :: rest =>
    match decodeOpcode op with
    | none => .error (.unrecognizedOpcode op)
    | some shape =>
      match shape.fill rest with
      | none => .error (.truncated op)
      | some result => .ok result

/-- How many operand bytes follow an opcode byte; none follow an unassigned one (30 R60: "no operand or pointer byte is
read", R61: "An unassigned opcode has no length"). -/
def operandCount (op : Word) : Nat :=
  match decodeOpcode op with
  | none => 0
  | some shape => shape.operandBytes

/-- The low nibbles of the generic addressing family (30 R53). -/
def genericLowNibbles : List Word := [0x1, 0x5, 0x6, 0x9, 0xD, 0xE]

/-- "if lo nibble ∈ {0x01,0x05,0x06,0x09,0x0D,0x0E}" (30 R53). -/
def isGeneric (op : Word) : Bool := genericLowNibbles.contains (op &&& 0x0F)

/-- The eight modes in the fixed order of 30 R54. -/
def modeOrder : List Mode :=
  [.indexedIndirectX, .indirectIndexedY, .zeroPage, .zeroPageIndexedX, .immediate, .absoluteIndexedY, .absolute,
   .absoluteIndexedX]

/-- "mode_index = ((lo_nibble - 1) >> 1) | (hi_nibble & 1)" (30 R54). -/
def modeIndex (op : Word) : Nat :=
  let lo := op &&& 0x0F
  let hi := op >>> 4
  (((lo - 1) >>> 1) ||| (hi &&& 1)).toNat

/-- The closed-form addressing mode of the generic addressing family; it has no meaning outside it (30 R54). -/
def genericMode (op : Word) : Option Mode := if isGeneric op then modeOrder[modeIndex op]? else none

/-- The bytes of an instruction, in the order they lie in memory: the opcode of 30 R57, then the operand of 30 R51. -/
def encode : Instr → List Word
  | .ldaIzx d => [0xA1, d]
  | .ldaIzy d => [0xB1, d]
  | .ldaZp d => [0xA5, d]
  | .ldaZpx d => [0xB5, d]
  | .ldaImm d => [0xA9, d]
  | .ldaAby a => [0xB9, lowByte a, highByte a]
  | .ldaAbs a => [0xAD, lowByte a, highByte a]
  | .ldaAbx a => [0xBD, lowByte a, highByte a]
  | .ldxZp d => [0xA6, d]
  | .ldxImm d => [0xA2, d]
  | .ldxAbs a => [0xAE, lowByte a, highByte a]
  | .ldyZp d => [0xA4, d]
  | .ldyZpx d => [0xB4, d]
  | .ldyImm d => [0xA0, d]
  | .ldyAbs a => [0xAC, lowByte a, highByte a]
  | .ldyAbx a => [0xBC, lowByte a, highByte a]
  | .staIzx d => [0x81, d]
  | .staIzy d => [0x91, d]
  | .staZp d => [0x85, d]
  | .staZpx d => [0x95, d]
  | .staAby a => [0x99, lowByte a, highByte a]
  | .staAbs a => [0x8D, lowByte a, highByte a]
  | .staAbx a => [0x9D, lowByte a, highByte a]
  | .stxZp d => [0x86, d]
  | .stxAbs a => [0x8E, lowByte a, highByte a]
  | .styZp d => [0x84, d]
  | .styZpx d => [0x94, d]
  | .styAbs a => [0x8C, lowByte a, highByte a]
  | .tax => [0xAA]
  | .tay => [0xA8]
  | .txa => [0x8A]
  | .tya => [0x98]
  | .tsx => [0xBA]
  | .txs => [0x9A]
  | .incZp d => [0xE6, d]
  | .incZpx d => [0xF6, d]
  | .incAbs a => [0xEE, lowByte a, highByte a]
  | .incAbx a => [0xFE, lowByte a, highByte a]
  | .inx => [0xE8]
  | .iny => [0xC8]
  | .dex => [0xCA]
  | .dey => [0x88]
  | .eorIzx d => [0x41, d]
  | .eorIzy d => [0x51, d]
  | .eorZp d => [0x45, d]
  | .eorZpx d => [0x55, d]
  | .eorImm d => [0x49, d]
  | .eorAby a => [0x59, lowByte a, highByte a]
  | .eorAbs a => [0x4D, lowByte a, highByte a]
  | .eorAbx a => [0x5D, lowByte a, highByte a]
  | .oraIzx d => [0x01, d]
  | .oraIzy d => [0x11, d]
  | .oraZp d => [0x05, d]
  | .oraZpx d => [0x15, d]
  | .oraImm d => [0x09, d]
  | .oraAby a => [0x19, lowByte a, highByte a]
  | .oraAbs a => [0x0D, lowByte a, highByte a]
  | .oraAbx a => [0x1D, lowByte a, highByte a]
  | .adcIzx d => [0x61, d]
  | .adcIzy d => [0x71, d]
  | .adcZp d => [0x65, d]
  | .adcZpx d => [0x75, d]
  | .adcImm d => [0x69, d]
  | .adcAby a => [0x79, lowByte a, highByte a]
  | .adcAbs a => [0x6D, lowByte a, highByte a]
  | .adcAbx a => [0x7D, lowByte a, highByte a]
  | .sbcIzx d => [0xE1, d]
  | .sbcIzy d => [0xF1, d]
  | .sbcZp d => [0xE5, d]
  | .sbcZpx d => [0xF5, d]
  | .sbcImm d => [0xE9, d]
  | .sbcAby a => [0xF9, lowByte a, highByte a]
  | .sbcAbs a => [0xED, lowByte a, highByte a]
  | .sbcAbx a => [0xFD, lowByte a, highByte a]
  | .rolZp d => [0x26, d]
  | .rolZpx d => [0x36, d]
  | .rolAbs a => [0x2E, lowByte a, highByte a]
  | .rolAbx a => [0x3E, lowByte a, highByte a]
  | .rorZp d => [0x66, d]
  | .rorZpx d => [0x76, d]
  | .rorAbs a => [0x6E, lowByte a, highByte a]
  | .rorAbx a => [0x7E, lowByte a, highByte a]
  | .aslZp d => [0x06, d]
  | .aslZpx d => [0x16, d]
  | .aslAbs a => [0x0E, lowByte a, highByte a]
  | .aslAbx a => [0x1E, lowByte a, highByte a]
  | .lsrZp d => [0x46, d]
  | .lsrZpx d => [0x56, d]
  | .lsrAbs a => [0x4E, lowByte a, highByte a]
  | .lsrAbx a => [0x5E, lowByte a, highByte a]
  | .sec => [0x38]
  | .clc => [0x18]
  | .sed => [0xF8]
  | .cld => [0xD8]
  | .sei => [0x78]
  | .cli => [0x58]
  | .clv => [0xB8]
  | .nop => [0xEA]

/-- The longest instruction, in bytes (30 R50). -/
def longestInstruction : Nat := 3

/-- The first `n` bytes of the number `w`, its bits 7..0 first: how an instruction whose bits are numbered as
spec/opcode_table.json numbers them lies in memory. -/
def bytesOfNat : Nat → Nat → List Word
  | 0, _ => []
  | n + 1, w => BitVec.ofNat 8 w :: bytesOfNat n (w / 256)

/-- The bytes of a word of the opcode table: the bits above `nbits` are 0, up to the longest instruction. -/
def tableBytes (nbits w : Nat) : List Word := bytesOfNat longestInstruction (w % 2 ^ nbits)

/-- The instruction the decoder reads from a word of the opcode table; none where the decoder refuses it. -/
def decodeTableWord (nbits w : Nat) : Option Instr :=
  match decode (tableBytes nbits w) with
  | .ok (i, _) => some i
  | .error _ => none

end Sys2Proof
end

