-- ==== Sys2Proof/Config.lean ====
section
/-! DEFINITION. The implementation parameters of 00_scope R4 and the arguments of construction (70 R196): what is fixed
for this hardware, what the caller supplies, and the values the model's reset state takes for the open ones. -/

namespace Sys2Proof.Config

/-- `WORD_BITS` (R4). -/
def wordBits : Nat := 8
/-- `ADDR_BITS` (R4). -/
def addrBits : Nat := 16
/-- `MEM_BYTES` (R4). -/
abbrev memBytes : Nat := 65536
/-- `N_MODES` (R4): the addressing modes of the resolver, Implied not counted. -/
def addressingModes : Nat := 8
/-- `N_OPCODES` (R4): assigned opcode bytes. -/
def assignedOpcodes : Nat := 98

/-- The values of `BCD_OPTION` (R4, D9). This hardware takes `absent`; `present` is not specified and is refused. -/
inductive BcdOption where
  | absent
  | present
  deriving DecidableEq, Repr

/-- `BCD_OPTION` of this hardware (R4, 44 R128): "This hardware does not fit the option". -/
def bcdOption : BcdOption := .absent

/-- The arguments of construction, every one OPEN: supplied by the caller (R4, 10_state R29, 70 R196), with
`BCD_OPTION`, which 92_eei_decisions lists among the open parameters ("must be `absent`; `present` is refused"). -/
structure Init where
  /-- `INIT_MEM`: "a 65536-byte memory image (pre-loaded)". -/
  mem : Vector Word memBytes
  /-- `INIT_PC`. -/
  pc : Address
  /-- `INIT_AC`. -/
  ac : Word
  /-- `INIT_X`. -/
  x : Word
  /-- `INIT_Y`. -/
  y : Word
  /-- `INIT_SP`. -/
  sp : Word
  /-- `INIT_SR`; construction forces its bit 5 to 1. -/
  sr : Word
  /-- `BCD_OPTION`. -/
  bcd : BcdOption := bcdOption
  deriving DecidableEq, Repr

/-- What a memory address that the model's memory does not list reads as. DESIGN CHOICE (log entry 3; unsafe): the spec
leaves `INIT_MEM` to the caller, and its typical state has memory "zero except the bytes the example lists" (70 R197). -/
def unlistedByte : Word := 0x00

/-- `INIT_PC` of the model's reset state. DESIGN CHOICE (log entry 1; unsafe): the spec leaves it to the caller. -/
def resetPc : Address := 0x0000

/-- `INIT_AC`, `INIT_X`, `INIT_Y`, `INIT_SP` of the model's reset state: the value of TYPICAL_INIT (70 R197), which the
spec does not require. DESIGN CHOICE (log entry 2; unsafe). -/
def resetWord : Word := 0x00

/-- `INIT_SR` of the model's reset state: the value of TYPICAL_INIT (70 R197), "all flags clear, bit 5 set".
DESIGN CHOICE (log entry 2; unsafe). -/
def resetSr : Word := 0x20

/-- TYPICAL_INIT (70 R197): registers zero, `SR = 0x20`, memory zero, "`pc` chosen by the caller". -/
def typicalInit (startPc : Address) : Init where
  mem := Vector.replicate memBytes unlistedByte
  pc := startPc
  ac := resetWord
  x := resetWord
  y := resetWord
  sp := resetWord
  sr := resetSr

end Sys2Proof.Config
end

