-- ==== Sys2Proof/Machine/State.lean ====
section
/-! DEFINITION. The state of the core as plain data, the reasons a step or a construction stops, and the state after reset.
"The whole state of a core is the tuple `(pc, AC, X, Y, SP, SR, mem)`" (10_state R28): nothing else persists. -/

namespace Sys2Proof.Machine

/-- The 65536-byte memory (20 R30), as the list of the cells that differ from `Config.unlistedByte`, addresses strictly
rising (`Memory.wf`, Machine/Ops.lean). -/
abbrev Memory := List Host.Cell

/-- The state of the core (10_state R10, R28). -/
structure State where
  /-- Program counter (R12). -/
  pc : Address
  /-- Accumulator (R13). -/
  ac : Word
  /-- Index register X (R13). -/
  x : Word
  /-- Index register Y (R13). -/
  y : Word
  /-- Stack pointer: storage only (R14). -/
  sp : Word
  /-- Status register, bits 7 to 0 N V U B D I Z C (R15, R16). -/
  sr : Word
  /-- Memory (20 R30). -/
  mem : Memory
  deriving DecidableEq, Repr

/-- Why the core stops: exactly one kind of error (60 R175, R177). -/
inductive Fault where
  /-- Raised by `step` when the byte at `pc` is no assigned opcode: `UnrecognizedOpcode(pc, op)` (60 R175, R176). The state
  is left as it was. Safe: it is the hardware's own error, reported to the caller. -/
  | unrecognizedOpcode (pc : Address) (op : Word)
  deriving DecidableEq, Repr

/-- What the model gives no meaning to. -/
inductive Refusal where
  /-- Raised by an arm of `exec` whose instruction has no meaning yet; no arm does. Safe: nothing is claimed. -/
  | notModelled (mnemonic : String)
  /-- Raised by construction when `BCD_OPTION = present` is asked for: "a model must refuse `BCD_OPTION = present`"
  (92 D9, 93 U3). Safe: the spec gives that variant no behaviour. -/
  | bcdOptionPresent
  deriving DecidableEq, Repr

/-- The state right after reset. The core's only reset is construction with caller-supplied values (70 R196, R198); this is
the construction from TYPICAL_INIT (70 R197) at the start address `Config.resetPc`. DESIGN CHOICE (log entries 1, 2, 3;
unsafe): every one of these values is the caller's. Bit 5 of `SR` is forced to 1 as R196 says. -/
def State.reset : State where
  pc := Config.resetPc
  ac := Config.resetWord
  x := Config.resetWord
  y := Config.resetWord
  sp := Config.resetWord
  sr := Config.resetSr ||| 0x20
  mem := []

end Sys2Proof.Machine
end

