-- ==== Sys2Proof/Machine/Ops.lean ====
section
/-! DEFINITION. The named operations over memory and registers: MemRead and MemWrite (20_memory R31 to R33), the register
writes (10_state R10), fetching the bytes of an instruction (47 R160, 20 R37), raising the one exception (60 R175), the
Advance phase (47 R160), and construction (70 R196). The spec gives the core no return from an exception (60 R180). -/

namespace Sys2Proof.Machine

/-- The byte at a key of the list; `Config.unlistedByte` where the list has no such key. -/
def Memory.read : Memory → Nat → Word
  | [], _ => Config.unlistedByte
  | (k, v) :: rest, a => if k = a then v else Memory.read rest a

/-- The memory with one byte changed, in canonical form: writing the byte an unlisted address reads as removes the cell. -/
def Memory.write : Memory → Nat → Word → Memory
  | [], a, v => if v = Config.unlistedByte then [] else [(a, v)]
  | (k, w) :: rest, a, v =>
    if a < k then
      if v = Config.unlistedByte then (k, w) :: rest else (a, v) :: (k, w) :: rest
    else if a = k then
      if v = Config.unlistedByte then rest else (a, v) :: rest
    else (k, w) :: Memory.write rest a v

/-- The cells from address `lo` on are in canonical form: addresses rise strictly and lie below 65536, and no cell holds
the byte an unlisted address reads as. -/
def Memory.wfFrom : Nat → Memory → Bool
  | _, [] => true
  | lo, (k, v) :: rest => decide (lo ≤ k) && decide (k < Config.memBytes) && decide (v ≠ Config.unlistedByte) &&
      Memory.wfFrom (k + 1) rest

/-- The memory is in canonical form. -/
def Memory.wf (m : Memory) : Bool := Memory.wfFrom 0 m

/-- The memory that holds the bytes of a list at the addresses from `a` on. -/
def Memory.ofBytesFrom : Nat → List Word → Memory
  | _, [] => []
  | a, b :: bs => if b = Config.unlistedByte then Memory.ofBytesFrom (a + 1) bs else (a, b) :: Memory.ofBytesFrom (a + 1) bs

/-- "mem[a] <- INIT_MEM[a] for every a in 0x0000..0xFFFF" (70 R196). -/
def Memory.ofImage (image : Vector Word Config.memBytes) : Memory := Memory.ofBytesFrom 0 image.toList

/-- `MemRead(addr, 1)` (20 R31): an `Address` is already reduced modulo 65536. -/
def State.memRead (s : State) (a : Address) : Word := s.mem.read a.toNat

/-- `MemRead(addr, 2)` (20 R32, R34): low byte at `addr`, high byte at `addr + 1` modulo 65536. -/
def State.memRead16 (s : State) (a : Address) : Address := joinBytes (s.memRead (a + 1)) (s.memRead a)

/-- `MemWrite(addr, 1, v)` (20 R33): one byte, no other location and no register. -/
def State.memWrite (s : State) (a : Address) (v : Word) : State := { s with mem := s.mem.write a.toNat v }

/-- `AC <- v` (10_state R10). -/
def State.setAc (s : State) (v : Word) : State := { s with ac := v }

/-- `X <- v` (10_state R10). -/
def State.setX (s : State) (v : Word) : State := { s with x := v }

/-- `Y <- v` (10_state R10). -/
def State.setY (s : State) (v : Word) : State := { s with y := v }

/-- `SP <- v` (10_state R10, R14). -/
def State.setSp (s : State) (v : Word) : State := { s with sp := v }

/-- `SR` with all its bits given; only the flag operations of Machine/Flags.lean use it (10_state R15). -/
def State.setSr (s : State) (v : Word) : State := { s with sr := v }

/-- "Advance: PC += width": `pc <- (pc + width) mod 65536` (10_state R12, 47 R160, R164). -/
def State.advance (s : State) (width : Nat) : State := { s with pc := s.pc + BitVec.ofNat 16 width }

/-- A step that returns ok: the state Execute left, then Advance (47 R160). -/
def completes (width : Nat) (s : State) : Host.Outcome State Fault Refusal := .next (s.advance width)

/-- `raise UnrecognizedOpcode(pc, op)` with `op = mem[pc]` (60 R175, R176): the step ends at once, nothing is written, and
the caller gets the pair. There is no vector, no saved register and no mode to change (60 R179). -/
def State.raiseUnrecognizedOpcode (s : State) : Host.Outcome State Fault Refusal :=
  .fault (.unrecognizedOpcode s.pc (s.memRead s.pc))

/-- The `n` bytes from `a` on, addresses modulo 65536. -/
def State.readBytes (s : State) : Nat → Address → List Word
  | 0, _ => []
  | n + 1, a => s.memRead a :: s.readBytes n (a + 1)

/-- The state with bytes stored from `a` on, addresses modulo 65536. -/
def State.writeBytes (s : State) : Address → List Word → State
  | _, [] => s
  | a, b :: bs => (s.memWrite a b).writeBytes (a + 1) bs

/-- The bytes a step fetches (20 R37, phases 1 and 2): the opcode at `pc`, then the operand bytes its mode has. -/
def State.fetchBytes (s : State) : List Word :=
  s.memRead s.pc :: s.readBytes (operandCount (s.memRead s.pc)) (s.pc + 1)

/-- Construction (70 R196), the core's only reset: every register and memory byte as the caller supplies it, bit 5 of `SR`
forced to 1. `BCD_OPTION = present` is refused (92 D9, 93 U3). -/
def State.construct (init : Config.Init) : Host.Outcome State Fault Refusal :=
  match init.bcd with
  | .present => .refused .bcdOptionPresent
  | .absent =>
    .next {
      pc := init.pc
      ac := init.ac
      x := init.x
      y := init.y
      sp := init.sp
      sr := init.sr ||| 0x20
      mem := Memory.ofImage init.mem }

end Sys2Proof.Machine
end

