-- ==== Sys2Proof/Machine/Flags.lean ====
section
/-! DEFINITION. The status register: its bits (10_state R16), the three StatusFlags operations (R26), SetZN (R22), and every
flag and result computation the instruction rules give: the sum, carry and overflow of `adc` and `sbc` (44 R125 to R127) and
the bit movements of the shifts and rotates (45 R135 to R138). -/

namespace Sys2Proof.Machine

/-- The eight named bits of `SR` (10_state R16). -/
inductive Flag where
  | negative
  | overflow
  | ignored
  | brk
  | decimal
  | interrupt
  | zero
  | carry
  deriving DecidableEq, Repr

/-- The mask of a flag (10_state R16). -/
def flagMask : Flag → Word
  | .negative => 0x80
  | .overflow => 0x40
  | .ignored => 0x20
  | .brk => 0x10
  | .decimal => 0x08
  | .interrupt => 0x04
  | .zero => 0x02
  | .carry => 0x01

/-- "`clear(flags)`: SR &= ~flags." (10_state R26). -/
def clearFlags (flags sr : Word) : Word := sr &&& ~~~flags

/-- "`set(flags)`: SR |= flags." (10_state R26). -/
def setFlags (flags sr : Word) : Word := sr ||| flags

/-- "`assign(flags, condition)`: sets `flags` if `condition` is true, else clears them" (10_state R26). -/
def assignFlags (flags : Word) (condition : Bool) (sr : Word) : Word :=
  if condition then setFlags flags sr else clearFlags flags sr

/-- `SR.f` read as a boolean (00_scope section 5). -/
def State.flag (s : State) (f : Flag) : Bool := (s.sr &&& flagMask f) != 0

/-- `SR.f <- b` (00_scope section 5): that one bit, and no other. -/
def State.assignFlag (s : State) (f : Flag) (b : Bool) : State := s.setSr (assignFlags (flagMask f) b s.sr)

/-- "`updateZero(value)`: assign(Zero, value == 0)" (10_state R22). -/
def State.updateZero (s : State) (v : Word) : State := s.assignFlag .zero (v == 0)

/-- "`updateNegative(value)`: assign(Negative, bit 7 of value is set)" (10_state R22). -/
def State.updateNegative (s : State) (v : Word) : State := s.assignFlag .negative v.msb

/-- `SetZN(v)` (10_state R22). -/
def State.setZN (s : State) (v : Word) : State := (s.updateZero v).updateNegative v

/-- `bool(b)` (00_scope section 5): 1 for true and 0 for false. -/
def bitOf (b : Bool) : Nat := if b then 1 else 0

/-- The widened sum `t` of `adc` and `sbc`, an unbounded integer in 0..511 (44 R125, R126). -/
def wideSum (a b : Word) (c : Bool) : Nat := a.toNat + b.toNat + bitOf c

/-- `r <- t mod 256` (44 R125). -/
def sumResult (a b : Word) (c : Bool) : Word := BitVec.ofNat 8 (wideSum a b c)

/-- `t[8]`: "1 iff t >= 256" (44 R125). -/
def sumCarry (a b : Word) (c : Bool) : Bool := (wideSum a b c).testBit 8

/-- `bool(AC[7] == b[7] and r[7] != AC[7])` (44 R125, R126, R127 form (a)). -/
def sumOverflow (a b : Word) (c : Bool) : Bool := a.msb == b.msb && (sumResult a b c).msb != a.msb

/-- The subtrahend's one's complement, `m ^ 0xFF` (44 R126). -/
def onesComplement (m : Word) : Word := m ^^^ 0xFF

/-- `((m << 1) | c) mod 256` (45 R135); with `c` false, `(m << 1) mod 256` (R137). -/
def shiftLeftIn (m : Word) (c : Bool) : Word := (m <<< 1) ||| BitVec.ofNat 8 (bitOf c)

/-- `(m >> 1) | (c << 7)` (45 R136); with `c` false, `m >> 1` (R138). -/
def shiftRightIn (m : Word) (c : Bool) : Word := (m >>> 1) ||| (BitVec.ofNat 8 (bitOf c) <<< 7)

/-- Bit 7 of the operand before a left shift: the new Carry (45 R135, R137). -/
def bitOutLeft (m : Word) : Bool := m.msb

/-- Bit 0 of the operand before a right shift: the new Carry (45 R136, R138). -/
def bitOutRight (m : Word) : Bool := m.getLsbD 0

end Sys2Proof.Machine
end

