-- ==== Sys2Proof/Machine/Operands.lean ====
section
/-! DEFINITION. The addressing-mode resolver (40_addressing): the effective address of each mode from the operand the decoded
instruction carries, and `Resolve(mode)` as the spec writes it, from the bytes at `pc`. It writes nothing and never fails
(R70); in a step the two agree, since the operand was read from those bytes (log entry 8). -/

namespace Sys2Proof.Machine

/-- `zext_16(v)`: the 8-bit value as a 16-bit address, high byte 0 (00_scope section 5). -/
def zext16 (v : Word) : Address := v.setWidth 16

/-- IndexedIndirectX (40 R73): pointer address `(d + X) mod 256`, its word read with `MemRead(p, 2)`. -/
def State.eaIndexedIndirectX (s : State) (d : Word) : Address := s.memRead16 (zext16 (d + s.x))

/-- IndirectIndexedY (40 R74): the word at `d` plus `Y`, modulo 65536. -/
def State.eaIndirectIndexedY (s : State) (d : Word) : Address := s.memRead16 (zext16 d) + zext16 s.y

/-- ZeroPage (40 R75). -/
def State.eaZeroPage (_ : State) (d : Word) : Address := zext16 d

/-- ZeroPageIndexedX (40 R76): `(d + X) mod 256`, never outside the zero page. -/
def State.eaZeroPageIndexedX (s : State) (d : Word) : Address := zext16 (d + s.x)

/-- Immediate (40 R77): "the address of the operand byte itself, `PC+1`". -/
def State.eaImmediate (s : State) : Address := s.pc + 1

/-- AbsoluteIndexedY (40 R78): `(a + Y) mod 65536`. -/
def State.eaAbsoluteIndexedY (s : State) (a : Address) : Address := a + zext16 s.y

/-- Absolute (40 R79). -/
def State.eaAbsolute (_ : State) (a : Address) : Address := a

/-- AbsoluteIndexedX (40 R80): `(a + X) mod 65536`. -/
def State.eaAbsoluteIndexedX (s : State) (a : Address) : Address := a + zext16 s.x

/-- `d <- MemRead((pc + 1) mod 65536, 1)` (30 R52). -/
def State.operandByte (s : State) : Word := s.memRead (s.pc + 1)

/-- `a <- MemRead((pc + 1) mod 65536, 2)` (30 R52). -/
def State.operandWord (s : State) : Address := s.memRead16 (s.pc + 1)

/-- `Resolve(mode)` (40 R72); for Implied there is no effective address (R81). -/
def State.resolve (s : State) : Mode → Option Address
  | .indexedIndirectX => some (s.eaIndexedIndirectX s.operandByte)
  | .indirectIndexedY => some (s.eaIndirectIndexedY s.operandByte)
  | .zeroPage => some (s.eaZeroPage s.operandByte)
  | .zeroPageIndexedX => some (s.eaZeroPageIndexedX s.operandByte)
  | .immediate => some s.eaImmediate
  | .absoluteIndexedY => some (s.eaAbsoluteIndexedY s.operandWord)
  | .absolute => some (s.eaAbsolute s.operandWord)
  | .absoluteIndexedX => some (s.eaAbsoluteIndexedX s.operandWord)
  | .implied => none

/-- The effective address of a decoded instruction, by its mode and the operand it carries; none for Implied. -/
def State.effectiveAddress (s : State) (i : Instr) : Option Address :=
  match i.mode, i.form.operand with
  | .indexedIndirectX, .byte d => some (s.eaIndexedIndirectX d)
  | .indirectIndexedY, .byte d => some (s.eaIndirectIndexedY d)
  | .zeroPage, .byte d => some (s.eaZeroPage d)
  | .zeroPageIndexedX, .byte d => some (s.eaZeroPageIndexedX d)
  | .immediate, .byte _ => some s.eaImmediate
  | .absoluteIndexedY, .word a => some (s.eaAbsoluteIndexedY a)
  | .absolute, .word a => some (s.eaAbsolute a)
  | .absoluteIndexedX, .word a => some (s.eaAbsoluteIndexedX a)
  | _, _ => none

end Sys2Proof.Machine
end

