-- ==== Sys2Proof/Machine/Arithmetic.lean ====
section
/-! DEFINITION. Execute and Advance of the arithmetic instructions (44_arithmetic): what each mnemonic does with its operand,
once, and then one meaning for each of its opcodes. A meaning resolves its effective address (40_addressing), executes, and
advances `pc` by the width of its format (47 R160). With Immediate the operand is the byte `d` itself (30 R51). -/

namespace Sys2Proof.Machine

/-- The addition both instructions make (R125, R126): `AC`, `b` and the carry-in in a widened sum; C, V, then `AC` and
`SetZN`. `SR.D` is not read (R128). -/
def State.addWithCarry (s : State) (b : Word) : State :=
  let c := s.flag .carry
  let r := sumResult s.ac b c
  (((s.assignFlag .carry (sumCarry s.ac b c)).assignFlag .overflow (sumOverflow s.ac b c)).setAc r).setZN r

/-- `adc` (R125). -/
def State.adc (s : State) (m : Word) : State := s.addWithCarry m

/-- `sbc` (R126): the addition of the subtrahend's one's complement; Carry 1 means no borrow. -/
def State.sbc (s : State) (m : Word) : State := s.addWithCarry (onesComplement m)

/-- `adc ($nn,x)`, opcode 0x61 (R125, R73). -/
def execAdcIzx (d : Word) (s : State) : Host.Outcome State Fault Refusal :=
  completes 2 (s.adc (s.memRead (s.eaIndexedIndirectX d)))

/-- `adc ($nn),y`, opcode 0x71 (R125, R74). -/
def execAdcIzy (d : Word) (s : State) : Host.Outcome State Fault Refusal :=
  completes 2 (s.adc (s.memRead (s.eaIndirectIndexedY d)))

/-- `adc $nn`, opcode 0x65 (R125, R75). -/
def execAdcZp (d : Word) (s : State) : Host.Outcome State Fault Refusal :=
  completes 2 (s.adc (s.memRead (s.eaZeroPage d)))

/-- `adc $nn,x`, opcode 0x75 (R125, R76). -/
def execAdcZpx (d : Word) (s : State) : Host.Outcome State Fault Refusal :=
  completes 2 (s.adc (s.memRead (s.eaZeroPageIndexedX d)))

/-- `adc #$nn`, opcode 0x69 (R125, R77). -/
def execAdcImm (d : Word) (s : State) : Host.Outcome State Fault Refusal :=
  completes 2 (s.adc d)

/-- `adc $nnnn,y`, opcode 0x79 (R125, R78). -/
def execAdcAby (a : Address) (s : State) : Host.Outcome State Fault Refusal :=
  completes 3 (s.adc (s.memRead (s.eaAbsoluteIndexedY a)))

/-- `adc $nnnn`, opcode 0x6D (R125, R79). -/
def execAdcAbs (a : Address) (s : State) : Host.Outcome State Fault Refusal :=
  completes 3 (s.adc (s.memRead (s.eaAbsolute a)))

/-- `adc $nnnn,x`, opcode 0x7D (R125, R80). -/
def execAdcAbx (a : Address) (s : State) : Host.Outcome State Fault Refusal :=
  completes 3 (s.adc (s.memRead (s.eaAbsoluteIndexedX a)))

/-- `sbc ($nn,x)`, opcode 0xE1 (R126, R73). -/
def execSbcIzx (d : Word) (s : State) : Host.Outcome State Fault Refusal :=
  completes 2 (s.sbc (s.memRead (s.eaIndexedIndirectX d)))

/-- `sbc ($nn),y`, opcode 0xF1 (R126, R74). -/
def execSbcIzy (d : Word) (s : State) : Host.Outcome State Fault Refusal :=
  completes 2 (s.sbc (s.memRead (s.eaIndirectIndexedY d)))

/-- `sbc $nn`, opcode 0xE5 (R126, R75). -/
def execSbcZp (d : Word) (s : State) : Host.Outcome State Fault Refusal :=
  completes 2 (s.sbc (s.memRead (s.eaZeroPage d)))

/-- `sbc $nn,x`, opcode 0xF5 (R126, R76). -/
def execSbcZpx (d : Word) (s : State) : Host.Outcome State Fault Refusal :=
  completes 2 (s.sbc (s.memRead (s.eaZeroPageIndexedX d)))

/-- `sbc #$nn`, opcode 0xE9 (R126, R77). -/
def execSbcImm (d : Word) (s : State) : Host.Outcome State Fault Refusal :=
  completes 2 (s.sbc d)

/-- `sbc $nnnn,y`, opcode 0xF9 (R126, R78). -/
def execSbcAby (a : Address) (s : State) : Host.Outcome State Fault Refusal :=
  completes 3 (s.sbc (s.memRead (s.eaAbsoluteIndexedY a)))

/-- `sbc $nnnn`, opcode 0xED (R126, R79). -/
def execSbcAbs (a : Address) (s : State) : Host.Outcome State Fault Refusal :=
  completes 3 (s.sbc (s.memRead (s.eaAbsolute a)))

/-- `sbc $nnnn,x`, opcode 0xFD (R126, R80). -/
def execSbcAbx (a : Address) (s : State) : Host.Outcome State Fault Refusal :=
  completes 3 (s.sbc (s.memRead (s.eaAbsoluteIndexedX a)))

end Sys2Proof.Machine
end

