-- ==== Sys2Proof/Machine/FlagNop.lean ====
section
/-! DEFINITION. Execute and Advance of the flag set and clear instructions and nop (46_flag_and_nop): what each mnemonic does with its operand,
once, and then one meaning for each of its opcodes. A meaning resolves its effective address (40_addressing), executes, and
advances `pc` by the width of its format (47 R160). With Immediate the operand is the byte `d` itself (30 R51). -/

namespace Sys2Proof.Machine

/-- `set` of one flag's mask, as the flag instructions use it (10_state R26, R153). -/
def State.setFlag (s : State) (f : Flag) : State := s.setSr (setFlags (flagMask f) s.sr)

/-- `clear` of one flag's mask, as the flag instructions use it (10_state R26, R153). -/
def State.clearFlag (s : State) (f : Flag) : State := s.setSr (clearFlags (flagMask f) s.sr)

/-- `sec`, opcode 0x38 (R145, R81). -/
def execSec (s : State) : Host.Outcome State Fault Refusal :=
  completes 1 (s.setFlag .carry)

/-- `clc`, opcode 0x18 (R146, R81). -/
def execClc (s : State) : Host.Outcome State Fault Refusal :=
  completes 1 (s.clearFlag .carry)

/-- `sed`, opcode 0xF8 (R147, R81). -/
def execSed (s : State) : Host.Outcome State Fault Refusal :=
  completes 1 (s.setFlag .decimal)

/-- `cld`, opcode 0xD8 (R148, R81). -/
def execCld (s : State) : Host.Outcome State Fault Refusal :=
  completes 1 (s.clearFlag .decimal)

/-- `sei`, opcode 0x78 (R149, R81). -/
def execSei (s : State) : Host.Outcome State Fault Refusal :=
  completes 1 (s.setFlag .interrupt)

/-- `cli`, opcode 0x58 (R150, R81). -/
def execCli (s : State) : Host.Outcome State Fault Refusal :=
  completes 1 (s.clearFlag .interrupt)

/-- `clv`, opcode 0xB8 (R151, R81). -/
def execClv (s : State) : Host.Outcome State Fault Refusal :=
  completes 1 (s.clearFlag .overflow)

/-- `nop`, opcode 0xEA (R152): no state change but Advance. -/
def execNop (s : State) : Host.Outcome State Fault Refusal :=
  completes 1 s

end Sys2Proof.Machine
end

