-- ==== Sys2Proof/Machine/IncDec.lean ====
section
/-! DEFINITION. Execute and Advance of the increment and decrement instructions (42_increment_decrement): what each mnemonic does with its operand,
once, and then one meaning for each of its opcodes. A meaning resolves its effective address (40_addressing), executes, and
advances `pc` by the width of its format (47 R160). With Immediate the operand is the byte `d` itself (30 R51). -/

namespace Sys2Proof.Machine

/-- `inc` (R110): the byte at `ea` plus 1 modulo 256; `SetZN` of the new byte; C and V are not written. -/
def State.inc (s : State) (ea : Address) : State :=
  let r := s.memRead ea + 1
  (s.memWrite ea r).setZN r

/-- `inx` (R111): `X <- (X + 1) mod 256; SetZN(X)`. -/
def State.inx (s : State) : State := (s.setX (s.x + 1)).setZN (s.x + 1)

/-- `iny` (R112): `Y <- (Y + 1) mod 256; SetZN(Y)`. -/
def State.iny (s : State) : State := (s.setY (s.y + 1)).setZN (s.y + 1)

/-- `dex` (R113): `X <- (X - 1) mod 256; SetZN(X)`. -/
def State.dex (s : State) : State := (s.setX (s.x - 1)).setZN (s.x - 1)

/-- `dey` (R114): `Y <- (Y - 1) mod 256; SetZN(Y)`. -/
def State.dey (s : State) : State := (s.setY (s.y - 1)).setZN (s.y - 1)

/-- `inc $nn`, opcode 0xE6 (R110, R75). -/
def execIncZp (d : Word) (s : State) : Host.Outcome State Fault Refusal :=
  completes 2 (s.inc (s.eaZeroPage d))

/-- `inc $nn,x`, opcode 0xF6 (R110, R76). -/
def execIncZpx (d : Word) (s : State) : Host.Outcome State Fault Refusal :=
  completes 2 (s.inc (s.eaZeroPageIndexedX d))

/-- `inc $nnnn`, opcode 0xEE (R110, R79). -/
def execIncAbs (a : Address) (s : State) : Host.Outcome State Fault Refusal :=
  completes 3 (s.inc (s.eaAbsolute a))

/-- `inc $nnnn,x`, opcode 0xFE (R110, R80). -/
def execIncAbx (a : Address) (s : State) : Host.Outcome State Fault Refusal :=
  completes 3 (s.inc (s.eaAbsoluteIndexedX a))

/-- `inx`, opcode 0xE8 (R111, R81). -/
def execInx (s : State) : Host.Outcome State Fault Refusal :=
  completes 1 (s.inx)

/-- `iny`, opcode 0xC8 (R112, R81). -/
def execIny (s : State) : Host.Outcome State Fault Refusal :=
  completes 1 (s.iny)

/-- `dex`, opcode 0xCA (R113, R81). -/
def execDex (s : State) : Host.Outcome State Fault Refusal :=
  completes 1 (s.dex)

/-- `dey`, opcode 0x88 (R114, R81). -/
def execDey (s : State) : Host.Outcome State Fault Refusal :=
  completes 1 (s.dey)

end Sys2Proof.Machine
end

