-- ==== Sys2Proof/Machine/LoadStoreTransfer.lean ====
section
/-! DEFINITION. Execute and Advance of the load, store and transfer instructions (41_load_store_transfer): what each mnemonic does with its operand,
once, and then one meaning for each of its opcodes. A meaning resolves its effective address (40_addressing), executes, and
advances `pc` by the width of its format (47 R160). With Immediate the operand is the byte `d` itself (30 R51). -/

namespace Sys2Proof.Machine

/-- `lda` (R90): `AC <- m; SetZN(AC)`. -/
def State.lda (s : State) (m : Word) : State := (s.setAc m).setZN m

/-- `ldx` (R91): `X <- m; SetZN(X)`. -/
def State.ldx (s : State) (m : Word) : State := (s.setX m).setZN m

/-- `ldy` (R92): `Y <- m; SetZN(Y)`. -/
def State.ldy (s : State) (m : Word) : State := (s.setY m).setZN m

/-- `sta` (R93): `MemWrite(ea, 1, AC)`. -/
def State.sta (s : State) (ea : Address) : State := s.memWrite ea s.ac

/-- `stx` (R94): `MemWrite(ea, 1, X)`. -/
def State.stx (s : State) (ea : Address) : State := s.memWrite ea s.x

/-- `sty` (R95): `MemWrite(ea, 1, Y)`. -/
def State.sty (s : State) (ea : Address) : State := s.memWrite ea s.y

/-- `tax` (R96): `X <- AC; SetZN(X)`. -/
def State.tax (s : State) : State := (s.setX s.ac).setZN s.ac

/-- `tay` (R97): `Y <- AC; SetZN(Y)`. -/
def State.tay (s : State) : State := (s.setY s.ac).setZN s.ac

/-- `txa` (R98): `AC <- X; SetZN(AC)`. -/
def State.txa (s : State) : State := (s.setAc s.x).setZN s.x

/-- `tya` (R99): `AC <- Y; SetZN(AC)`. -/
def State.tya (s : State) : State := (s.setAc s.y).setZN s.y

/-- `tsx` (R100): `X <- SP; SetZN(X)`. -/
def State.tsx (s : State) : State := (s.setX s.sp).setZN s.sp

/-- `txs` (R101): `SP <- X`, "with **no** flag update". -/
def State.txs (s : State) : State := s.setSp s.x

/-- `lda ($nn,x)`, opcode 0xA1 (R90, R73). -/
def execLdaIzx (d : Word) (s : State) : Host.Outcome State Fault Refusal :=
  completes 2 (s.lda (s.memRead (s.eaIndexedIndirectX d)))

/-- `lda ($nn),y`, opcode 0xB1 (R90, R74). -/
def execLdaIzy (d : Word) (s : State) : Host.Outcome State Fault Refusal :=
  completes 2 (s.lda (s.memRead (s.eaIndirectIndexedY d)))

/-- `lda $nn`, opcode 0xA5 (R90, R75). -/
def execLdaZp (d : Word) (s : State) : Host.Outcome State Fault Refusal :=
  completes 2 (s.lda (s.memRead (s.eaZeroPage d)))

/-- `lda $nn,x`, opcode 0xB5 (R90, R76). -/
def execLdaZpx (d : Word) (s : State) : Host.Outcome State Fault Refusal :=
  completes 2 (s.lda (s.memRead (s.eaZeroPageIndexedX d)))

/-- `lda #$nn`, opcode 0xA9 (R90, R77). -/
def execLdaImm (d : Word) (s : State) : Host.Outcome State Fault Refusal :=
  completes 2 (s.lda d)

/-- `lda $nnnn,y`, opcode 0xB9 (R90, R78). -/
def execLdaAby (a : Address) (s : State) : Host.Outcome State Fault Refusal :=
  completes 3 (s.lda (s.memRead (s.eaAbsoluteIndexedY a)))

/-- `lda $nnnn`, opcode 0xAD (R90, R79). -/
def execLdaAbs (a : Address) (s : State) : Host.Outcome State Fault Refusal :=
  completes 3 (s.lda (s.memRead (s.eaAbsolute a)))

/-- `lda $nnnn,x`, opcode 0xBD (R90, R80). -/
def execLdaAbx (a : Address) (s : State) : Host.Outcome State Fault Refusal :=
  completes 3 (s.lda (s.memRead (s.eaAbsoluteIndexedX a)))

/-- `ldx $nn`, opcode 0xA6 (R91, R75). -/
def execLdxZp (d : Word) (s : State) : Host.Outcome State Fault Refusal :=
  completes 2 (s.ldx (s.memRead (s.eaZeroPage d)))

/-- `ldx #$nn`, opcode 0xA2 (R91, R77). -/
def execLdxImm (d : Word) (s : State) : Host.Outcome State Fault Refusal :=
  completes 2 (s.ldx d)

/-- `ldx $nnnn`, opcode 0xAE (R91, R79). -/
def execLdxAbs (a : Address) (s : State) : Host.Outcome State Fault Refusal :=
  completes 3 (s.ldx (s.memRead (s.eaAbsolute a)))

/-- `ldy $nn`, opcode 0xA4 (R92, R75). -/
def execLdyZp (d : Word) (s : State) : Host.Outcome State Fault Refusal :=
  completes 2 (s.ldy (s.memRead (s.eaZeroPage d)))

/-- `ldy $nn,x`, opcode 0xB4 (R92, R76). -/
def execLdyZpx (d : Word) (s : State) : Host.Outcome State Fault Refusal :=
  completes 2 (s.ldy (s.memRead (s.eaZeroPageIndexedX d)))

/-- `ldy #$nn`, opcode 0xA0 (R92, R77). -/
def execLdyImm (d : Word) (s : State) : Host.Outcome State Fault Refusal :=
  completes 2 (s.ldy d)

/-- `ldy $nnnn`, opcode 0xAC (R92, R79). -/
def execLdyAbs (a : Address) (s : State) : Host.Outcome State Fault Refusal :=
  completes 3 (s.ldy (s.memRead (s.eaAbsolute a)))

/-- `ldy $nnnn,x`, opcode 0xBC (R92, R80). -/
def execLdyAbx (a : Address) (s : State) : Host.Outcome State Fault Refusal :=
  completes 3 (s.ldy (s.memRead (s.eaAbsoluteIndexedX a)))

/-- `sta ($nn,x)`, opcode 0x81 (R93, R73). -/
def execStaIzx (d : Word) (s : State) : Host.Outcome State Fault Refusal :=
  completes 2 (s.sta (s.eaIndexedIndirectX d))

/-- `sta ($nn),y`, opcode 0x91 (R93, R74). -/
def execStaIzy (d : Word) (s : State) : Host.Outcome State Fault Refusal :=
  completes 2 (s.sta (s.eaIndirectIndexedY d))

/-- `sta $nn`, opcode 0x85 (R93, R75). -/
def execStaZp (d : Word) (s : State) : Host.Outcome State Fault Refusal :=
  completes 2 (s.sta (s.eaZeroPage d))

/-- `sta $nn,x`, opcode 0x95 (R93, R76). -/
def execStaZpx (d : Word) (s : State) : Host.Outcome State Fault Refusal :=
  completes 2 (s.sta (s.eaZeroPageIndexedX d))

/-- `sta $nnnn,y`, opcode 0x99 (R93, R78). -/
def execStaAby (a : Address) (s : State) : Host.Outcome State Fault Refusal :=
  completes 3 (s.sta (s.eaAbsoluteIndexedY a))

/-- `sta $nnnn`, opcode 0x8D (R93, R79). -/
def execStaAbs (a : Address) (s : State) : Host.Outcome State Fault Refusal :=
  completes 3 (s.sta (s.eaAbsolute a))

/-- `sta $nnnn,x`, opcode 0x9D (R93, R80). -/
def execStaAbx (a : Address) (s : State) : Host.Outcome State Fault Refusal :=
  completes 3 (s.sta (s.eaAbsoluteIndexedX a))

/-- `stx $nn`, opcode 0x86 (R94, R75). -/
def execStxZp (d : Word) (s : State) : Host.Outcome State Fault Refusal :=
  completes 2 (s.stx (s.eaZeroPage d))

/-- `stx $nnnn`, opcode 0x8E (R94, R79). -/
def execStxAbs (a : Address) (s : State) : Host.Outcome State Fault Refusal :=
  completes 3 (s.stx (s.eaAbsolute a))

/-- `sty $nn`, opcode 0x84 (R95, R75). -/
def execStyZp (d : Word) (s : State) : Host.Outcome State Fault Refusal :=
  completes 2 (s.sty (s.eaZeroPage d))

/-- `sty $nn,x`, opcode 0x94 (R95, R76). -/
def execStyZpx (d : Word) (s : State) : Host.Outcome State Fault Refusal :=
  completes 2 (s.sty (s.eaZeroPageIndexedX d))

/-- `sty $nnnn`, opcode 0x8C (R95, R79). -/
def execStyAbs (a : Address) (s : State) : Host.Outcome State Fault Refusal :=
  completes 3 (s.sty (s.eaAbsolute a))

/-- `tax`, opcode 0xAA (R96, R81). -/
def execTax (s : State) : Host.Outcome State Fault Refusal :=
  completes 1 (s.tax)

/-- `tay`, opcode 0xA8 (R97, R81). -/
def execTay (s : State) : Host.Outcome State Fault Refusal :=
  completes 1 (s.tay)

/-- `txa`, opcode 0x8A (R98, R81). -/
def execTxa (s : State) : Host.Outcome State Fault Refusal :=
  completes 1 (s.txa)

/-- `tya`, opcode 0x98 (R99, R81). -/
def execTya (s : State) : Host.Outcome State Fault Refusal :=
  completes 1 (s.tya)

/-- `tsx`, opcode 0xBA (R100, R81). -/
def execTsx (s : State) : Host.Outcome State Fault Refusal :=
  completes 1 (s.tsx)

/-- `txs`, opcode 0x9A (R101, R81). -/
def execTxs (s : State) : Host.Outcome State Fault Refusal :=
  completes 1 (s.txs)

end Sys2Proof.Machine
end

