-- ==== Sys2Proof/Machine/Logical.lean ====
section
/-! DEFINITION. Execute and Advance of the logical instructions (43_logical): what each mnemonic does with its operand,
once, and then one meaning for each of its opcodes. A meaning resolves its effective address (40_addressing), executes, and
advances `pc` by the width of its format (47 R160). With Immediate the operand is the byte `d` itself (30 R51). -/

namespace Sys2Proof.Machine

/-- `eor` (R120): `AC <- AC ^ m; SetZN(AC)`. -/
def State.eor (s : State) (m : Word) : State := (s.setAc (s.ac ^^^ m)).setZN (s.ac ^^^ m)

/-- `ora` (R121): `AC <- AC | m; SetZN(AC)`. -/
def State.ora (s : State) (m : Word) : State := (s.setAc (s.ac ||| m)).setZN (s.ac ||| m)

/-- `eor ($nn,x)`, opcode 0x41 (R120, R73). -/
def execEorIzx (d : Word) (s : State) : Host.Outcome State Fault Refusal :=
  completes 2 (s.eor (s.memRead (s.eaIndexedIndirectX d)))

/-- `eor ($nn),y`, opcode 0x51 (R120, R74). -/
def execEorIzy (d : Word) (s : State) : Host.Outcome State Fault Refusal :=
  completes 2 (s.eor (s.memRead (s.eaIndirectIndexedY d)))

/-- `eor $nn`, opcode 0x45 (R120, R75). -/
def execEorZp (d : Word) (s : State) : Host.Outcome State Fault Refusal :=
  completes 2 (s.eor (s.memRead (s.eaZeroPage d)))

/-- `eor $nn,x`, opcode 0x55 (R120, R76). -/
def execEorZpx (d : Word) (s : State) : Host.Outcome State Fault Refusal :=
  completes 2 (s.eor (s.memRead (s.eaZeroPageIndexedX d)))

/-- `eor #$nn`, opcode 0x49 (R120, R77). -/
def execEorImm (d : Word) (s : State) : Host.Outcome State Fault Refusal :=
  completes 2 (s.eor d)

/-- `eor $nnnn,y`, opcode 0x59 (R120, R78). -/
def execEorAby (a : Address) (s : State) : Host.Outcome State Fault Refusal :=
  completes 3 (s.eor (s.memRead (s.eaAbsoluteIndexedY a)))

/-- `eor $nnnn`, opcode 0x4D (R120, R79). -/
def execEorAbs (a : Address) (s : State) : Host.Outcome State Fault Refusal :=
  completes 3 (s.eor (s.memRead (s.eaAbsolute a)))

/-- `eor $nnnn,x`, opcode 0x5D (R120, R80). -/
def execEorAbx (a : Address) (s : State) : Host.Outcome State Fault Refusal :=
  completes 3 (s.eor (s.memRead (s.eaAbsoluteIndexedX a)))

/-- `ora ($nn,x)`, opcode 0x01 (R121, R73). -/
def execOraIzx (d : Word) (s : State) : Host.Outcome State Fault Refusal :=
  completes 2 (s.ora (s.memRead (s.eaIndexedIndirectX d)))

/-- `ora ($nn),y`, opcode 0x11 (R121, R74). -/
def execOraIzy (d : Word) (s : State) : Host.Outcome State Fault Refusal :=
  completes 2 (s.ora (s.memRead (s.eaIndirectIndexedY d)))

/-- `ora $nn`, opcode 0x05 (R121, R75). -/
def execOraZp (d : Word) (s : State) : Host.Outcome State Fault Refusal :=
  completes 2 (s.ora (s.memRead (s.eaZeroPage d)))

/-- `ora $nn,x`, opcode 0x15 (R121, R76). -/
def execOraZpx (d : Word) (s : State) : Host.Outcome State Fault Refusal :=
  completes 2 (s.ora (s.memRead (s.eaZeroPageIndexedX d)))

/-- `ora #$nn`, opcode 0x09 (R121, R77). -/
def execOraImm (d : Word) (s : State) : Host.Outcome State Fault Refusal :=
  completes 2 (s.ora d)

/-- `ora $nnnn,y`, opcode 0x19 (R121, R78). -/
def execOraAby (a : Address) (s : State) : Host.Outcome State Fault Refusal :=
  completes 3 (s.ora (s.memRead (s.eaAbsoluteIndexedY a)))

/-- `ora $nnnn`, opcode 0x0D (R121, R79). -/
def execOraAbs (a : Address) (s : State) : Host.Outcome State Fault Refusal :=
  completes 3 (s.ora (s.memRead (s.eaAbsolute a)))

/-- `ora $nnnn,x`, opcode 0x1D (R121, R80). -/
def execOraAbx (a : Address) (s : State) : Host.Outcome State Fault Refusal :=
  completes 3 (s.ora (s.memRead (s.eaAbsoluteIndexedX a)))

end Sys2Proof.Machine
end

