-- ==== Sys2Proof/Machine/ShiftRotate.lean ====
section
/-! DEFINITION. Execute and Advance of the shift and rotate instructions (45_shift_rotate): what each mnemonic does with its operand,
once, and then one meaning for each of its opcodes. A meaning resolves its effective address (40_addressing), executes, and
advances `pc` by the width of its format (47 R160). With Immediate the operand is the byte `d` itself (30 R51). -/

namespace Sys2Proof.Machine

/-- What the four instructions do with the result `r` and the bit `out` shifted out of the operand (R135 to R138):
`MemWrite(ea, 1, r); SetZN(r); SR.C <- out`. -/
def State.shiftMemory (s : State) (ea : Address) (r : Word) (out : Bool) : State :=
  ((s.memWrite ea r).setZN r).assignFlag .carry out

/-- `rol` (R135): the old Carry goes into bit 0, bit 7 into Carry. -/
def State.rol (s : State) (ea : Address) : State :=
  let m := s.memRead ea
  s.shiftMemory ea (shiftLeftIn m (s.flag .carry)) (bitOutLeft m)

/-- `ror` (R136): the old Carry goes into bit 7, bit 0 into Carry. -/
def State.ror (s : State) (ea : Address) : State :=
  let m := s.memRead ea
  s.shiftMemory ea (shiftRightIn m (s.flag .carry)) (bitOutRight m)

/-- `asl` (R137): 0 goes into bit 0, bit 7 into Carry; the old Carry is not read. -/
def State.asl (s : State) (ea : Address) : State :=
  let m := s.memRead ea
  s.shiftMemory ea (shiftLeftIn m false) (bitOutLeft m)

/-- `lsr` (R138): 0 goes into bit 7, bit 0 into Carry; the old Carry is not read. -/
def State.lsr (s : State) (ea : Address) : State :=
  let m := s.memRead ea
  s.shiftMemory ea (shiftRightIn m false) (bitOutRight m)

/-- `rol $nn`, opcode 0x26 (R135, R75). -/
def execRolZp (d : Word) (s : State) : Host.Outcome State Fault Refusal :=
  completes 2 (s.rol (s.eaZeroPage d))

/-- `rol $nn,x`, opcode 0x36 (R135, R76). -/
def execRolZpx (d : Word) (s : State) : Host.Outcome State Fault Refusal :=
  completes 2 (s.rol (s.eaZeroPageIndexedX d))

/-- `rol $nnnn`, opcode 0x2E (R135, R79). -/
def execRolAbs (a : Address) (s : State) : Host.Outcome State Fault Refusal :=
  completes 3 (s.rol (s.eaAbsolute a))

/-- `rol $nnnn,x`, opcode 0x3E (R135, R80). -/
def execRolAbx (a : Address) (s : State) : Host.Outcome State Fault Refusal :=
  completes 3 (s.rol (s.eaAbsoluteIndexedX a))

/-- `ror $nn`, opcode 0x66 (R136, R75). -/
def execRorZp (d : Word) (s : State) : Host.Outcome State Fault Refusal :=
  completes 2 (s.ror (s.eaZeroPage d))

/-- `ror $nn,x`, opcode 0x76 (R136, R76). -/
def execRorZpx (d : Word) (s : State) : Host.Outcome State Fault Refusal :=
  completes 2 (s.ror (s.eaZeroPageIndexedX d))

/-- `ror $nnnn`, opcode 0x6E (R136, R79). -/
def execRorAbs (a : Address) (s : State) : Host.Outcome State Fault Refusal :=
  completes 3 (s.ror (s.eaAbsolute a))

/-- `ror $nnnn,x`, opcode 0x7E (R136, R80). -/
def execRorAbx (a : Address) (s : State) : Host.Outcome State Fault Refusal :=
  completes 3 (s.ror (s.eaAbsoluteIndexedX a))

/-- `asl $nn`, opcode 0x06 (R137, R75). -/
def execAslZp (d : Word) (s : State) : Host.Outcome State Fault Refusal :=
  completes 2 (s.asl (s.eaZeroPage d))

/-- `asl $nn,x`, opcode 0x16 (R137, R76). -/
def execAslZpx (d : Word) (s : State) : Host.Outcome State Fault Refusal :=
  completes 2 (s.asl (s.eaZeroPageIndexedX d))

/-- `asl $nnnn`, opcode 0x0E (R137, R79). -/
def execAslAbs (a : Address) (s : State) : Host.Outcome State Fault Refusal :=
  completes 3 (s.asl (s.eaAbsolute a))

/-- `asl $nnnn,x`, opcode 0x1E (R137, R80). -/
def execAslAbx (a : Address) (s : State) : Host.Outcome State Fault Refusal :=
  completes 3 (s.asl (s.eaAbsoluteIndexedX a))

/-- `lsr $nn`, opcode 0x46 (R138, R75). -/
def execLsrZp (d : Word) (s : State) : Host.Outcome State Fault Refusal :=
  completes 2 (s.lsr (s.eaZeroPage d))

/-- `lsr $nn,x`, opcode 0x56 (R138, R76). -/
def execLsrZpx (d : Word) (s : State) : Host.Outcome State Fault Refusal :=
  completes 2 (s.lsr (s.eaZeroPageIndexedX d))

/-- `lsr $nnnn`, opcode 0x4E (R138, R79). -/
def execLsrAbs (a : Address) (s : State) : Host.Outcome State Fault Refusal :=
  completes 3 (s.lsr (s.eaAbsolute a))

/-- `lsr $nnnn,x`, opcode 0x5E (R138, R80). -/
def execLsrAbx (a : Address) (s : State) : Host.Outcome State Fault Refusal :=
  completes 3 (s.lsr (s.eaAbsoluteIndexedX a))

end Sys2Proof.Machine
end

