-- ==== Sys2Proof/Machine/Dispatch.lean ====
section
/-! DEFINITION. `Execute` and `Advance` of a decoded instruction (47 R160, R162): one arm for each row of the opcode table. -/

namespace Sys2Proof.Machine

def exec (i : Instr) (s : State) : Host.Outcome State Fault Refusal :=
  match i with
  | .ldaIzx d => Sys2Proof.Machine.execLdaIzx d s
  | .ldaIzy d => Sys2Proof.Machine.execLdaIzy d s
  | .ldaZp d => Sys2Proof.Machine.execLdaZp d s
  | .ldaZpx d => Sys2Proof.Machine.execLdaZpx d s
  | .ldaImm d => Sys2Proof.Machine.execLdaImm d s
  | .ldaAby a => Sys2Proof.Machine.execLdaAby a s
  | .ldaAbs a => Sys2Proof.Machine.execLdaAbs a s
  | .ldaAbx a => Sys2Proof.Machine.execLdaAbx a s
  | .ldxZp d => Sys2Proof.Machine.execLdxZp d s
  | .ldxImm d => Sys2Proof.Machine.execLdxImm d s
  | .ldxAbs a => Sys2Proof.Machine.execLdxAbs a s
  | .ldyZp d => Sys2Proof.Machine.execLdyZp d s
  | .ldyZpx d => Sys2Proof.Machine.execLdyZpx d s
  | .ldyImm d => Sys2Proof.Machine.execLdyImm d s
  | .ldyAbs a => Sys2Proof.Machine.execLdyAbs a s
  | .ldyAbx a => Sys2Proof.Machine.execLdyAbx a s
  | .staIzx d => Sys2Proof.Machine.execStaIzx d s
  | .staIzy d => Sys2Proof.Machine.execStaIzy d s
  | .staZp d => Sys2Proof.Machine.execStaZp d s
  | .staZpx d => Sys2Proof.Machine.execStaZpx d s
  | .staAby a => Sys2Proof.Machine.execStaAby a s
  | .staAbs a => Sys2Proof.Machine.execStaAbs a s
  | .staAbx a => Sys2Proof.Machine.execStaAbx a s
  | .stxZp d => Sys2Proof.Machine.execStxZp d s
  | .stxAbs a => Sys2Proof.Machine.execStxAbs a s
  | .styZp d => Sys2Proof.Machine.execStyZp d s
  | .styZpx d => Sys2Proof.Machine.execStyZpx d s
  | .styAbs a => Sys2Proof.Machine.execStyAbs a s
  | .tax => Sys2Proof.Machine.execTax s
  | .tay => Sys2Proof.Machine.execTay s
  | .txa => Sys2Proof.Machine.execTxa s
  | .tya => Sys2Proof.Machine.execTya s
  | .tsx => Sys2Proof.Machine.execTsx s
  | .txs => Sys2Proof.Machine.execTxs s
  | .incZp d => Sys2Proof.Machine.execIncZp d s
  | .incZpx d => Sys2Proof.Machine.execIncZpx d s
  | .incAbs a => Sys2Proof.Machine.execIncAbs a s
  | .incAbx a => Sys2Proof.Machine.execIncAbx a s
  | .inx => Sys2Proof.Machine.execInx s
  | .iny => Sys2Proof.Machine.execIny s
  | .dex => Sys2Proof.Machine.execDex s
  | .dey => Sys2Proof.Machine.execDey s
  | .eorIzx d => Sys2Proof.Machine.execEorIzx d s
  | .eorIzy d => Sys2Proof.Machine.execEorIzy d s
  | .eorZp d => Sys2Proof.Machine.execEorZp d s
  | .eorZpx d => Sys2Proof.Machine.execEorZpx d s
  | .eorImm d => Sys2Proof.Machine.execEorImm d s
  | .eorAby a => Sys2Proof.Machine.execEorAby a s
  | .eorAbs a => Sys2Proof.Machine.execEorAbs a s
  | .eorAbx a => Sys2Proof.Machine.execEorAbx a s
  | .oraIzx d => Sys2Proof.Machine.execOraIzx d s
  | .oraIzy d => Sys2Proof.Machine.execOraIzy d s
  | .oraZp d => Sys2Proof.Machine.execOraZp d s
  | .oraZpx d => Sys2Proof.Machine.execOraZpx d s
  | .oraImm d => Sys2Proof.Machine.execOraImm d s
  | .oraAby a => Sys2Proof.Machine.execOraAby a s
  | .oraAbs a => Sys2Proof.Machine.execOraAbs a s
  | .oraAbx a => Sys2Proof.Machine.execOraAbx a s
  | .adcIzx d => Sys2Proof.Machine.execAdcIzx d s
  | .adcIzy d => Sys2Proof.Machine.execAdcIzy d s
  | .adcZp d => Sys2Proof.Machine.execAdcZp d s
  | .adcZpx d => Sys2Proof.Machine.execAdcZpx d s
  | .adcImm d => Sys2Proof.Machine.execAdcImm d s
  | .adcAby a => Sys2Proof.Machine.execAdcAby a s
  | .adcAbs a => Sys2Proof.Machine.execAdcAbs a s
  | .adcAbx a => Sys2Proof.Machine.execAdcAbx a s
  | .sbcIzx d => Sys2Proof.Machine.execSbcIzx d s
  | .sbcIzy d => Sys2Proof.Machine.execSbcIzy d s
  | .sbcZp d => Sys2Proof.Machine.execSbcZp d s
  | .sbcZpx d => Sys2Proof.Machine.execSbcZpx d s
  | .sbcImm d => Sys2Proof.Machine.execSbcImm d s
  | .sbcAby a => Sys2Proof.Machine.execSbcAby a s
  | .sbcAbs a => Sys2Proof.Machine.execSbcAbs a s
  | .sbcAbx a => Sys2Proof.Machine.execSbcAbx a s
  | .rolZp d => Sys2Proof.Machine.execRolZp d s
  | .rolZpx d => Sys2Proof.Machine.execRolZpx d s
  | .rolAbs a => Sys2Proof.Machine.execRolAbs a s
  | .rolAbx a => Sys2Proof.Machine.execRolAbx a s
  | .rorZp d => Sys2Proof.Machine.execRorZp d s
  | .rorZpx d => Sys2Proof.Machine.execRorZpx d s
  | .rorAbs a => Sys2Proof.Machine.execRorAbs a s
  | .rorAbx a => Sys2Proof.Machine.execRorAbx a s
  | .aslZp d => Sys2Proof.Machine.execAslZp d s
  | .aslZpx d => Sys2Proof.Machine.execAslZpx d s
  | .aslAbs a => Sys2Proof.Machine.execAslAbs a s
  | .aslAbx a => Sys2Proof.Machine.execAslAbx a s
  | .lsrZp d => Sys2Proof.Machine.execLsrZp d s
  | .lsrZpx d => Sys2Proof.Machine.execLsrZpx d s
  | .lsrAbs a => Sys2Proof.Machine.execLsrAbs a s
  | .lsrAbx a => Sys2Proof.Machine.execLsrAbx a s
  | .sec => Sys2Proof.Machine.execSec s
  | .clc => Sys2Proof.Machine.execClc s
  | .sed => Sys2Proof.Machine.execSed s
  | .cld => Sys2Proof.Machine.execCld s
  | .sei => Sys2Proof.Machine.execSei s
  | .cli => Sys2Proof.Machine.execCli s
  | .clv => Sys2Proof.Machine.execClv s
  | .nop => Sys2Proof.Machine.execNop s

end Sys2Proof.Machine
end

