-- ==== Sys2Proof/Machine/Step.lean ====
section
/-! DEFINITION. One step of the core (47 R160): Fetch, Decode, ResolveAddress, Execute, Advance. -/

namespace Sys2Proof.Machine

/-- One call of `executeInstruction()` (47 R160): the bytes at `pc` are fetched and decoded; an unassigned opcode raises
UnrecognizedOpcode, and any other instruction is executed and `pc` advanced by its width. -/
def step (s : State) : Host.Outcome State Fault Refusal :=
  match decode s.fetchBytes with
  | .ok (i, _) => exec i s
  | .error _ => s.raiseUnrecognizedOpcode

/-- The state with a word of the opcode table stored where `step` fetches its next instruction: the bytes at `pc` on. It
stands for the memory image the caller supplies at construction (log entry 10). -/
def State.withFetchWord (s : State) (nbits w : Nat) : State := s.writeBytes s.pc (tableBytes nbits w)

end Sys2Proof.Machine
end

