-- ==== Sys2Proof/Machine/Reference.lean ====
section
/-! DEFINITION. The step as 47_step_cycle R160 writes it: `Decode(op) -> (mnemonic, mode, width) or none`, `Resolve(mode)` from
the bytes at `pc`, `Execute(mnemonic, ea)` from the table of R162, then Advance. It shares with the model the resolver's formulas
and what each mnemonic does, and stands beside `step`, which runs a decoded `Instr`, so that the two can be proved equal. -/

namespace Sys2Proof.Machine

/-- What Decode finds in the table for an opcode byte. -/
structure DecodedRow where
  mnemonic : Mnemonic
  mode : Mode
  width : Nat
  deriving DecidableEq, Repr

/-- An instruction of a shape, its operand zero: it names the row's mnemonic and mode. -/
def sampleInstr : Shape → Instr
  | .implied i => i
  | .byteOperand f => f 0
  | .wordOperand f => f 0

/-- `Decode(op)` (30 R53). -/
def specDecode (op : Word) : Option DecodedRow :=
  match decodeOpcode op with
  | none => none
  | some shape => some ⟨(sampleInstr shape).mnemonic, (sampleInstr shape).mode, (sampleInstr shape).width⟩

/-- `Execute(mnemonic, ea)` (47 R162); the Implied mnemonics do not use `ea`. -/
def State.execute (s : State) (ea : Address) : Mnemonic → State
  | .lda => s.lda (s.memRead ea)
  | .ldx => s.ldx (s.memRead ea)
  | .ldy => s.ldy (s.memRead ea)
  | .sta => s.sta ea
  | .stx => s.stx ea
  | .sty => s.sty ea
  | .tax => s.tax
  | .tay => s.tay
  | .txa => s.txa
  | .tya => s.tya
  | .tsx => s.tsx
  | .txs => s.txs
  | .inc => s.inc ea
  | .inx => s.inx
  | .iny => s.iny
  | .dex => s.dex
  | .dey => s.dey
  | .eor => s.eor (s.memRead ea)
  | .ora => s.ora (s.memRead ea)
  | .adc => s.adc (s.memRead ea)
  | .sbc => s.sbc (s.memRead ea)
  | .rol => s.rol ea
  | .ror => s.ror ea
  | .asl => s.asl ea
  | .lsr => s.lsr ea
  | .sec => s.setFlag .carry
  | .clc => s.clearFlag .carry
  | .sed => s.setFlag .decimal
  | .cld => s.clearFlag .decimal
  | .sei => s.setFlag .interrupt
  | .cli => s.clearFlag .interrupt
  | .clv => s.clearFlag .overflow
  | .nop => s

/-- `Step()` (47 R160), phase by phase. ResolveAddress is skipped for Implied (40 R81): no mnemonic of that class uses `ea`. -/
def specStep (s : State) : Host.Outcome State Fault Refusal :=
  let op := s.memRead s.pc
  match specDecode op with
  | none => .fault (.unrecognizedOpcode s.pc op)
  | some row =>
    let ea := (s.resolve row.mode).getD 0
    .next ((s.execute ea row.mnemonic).advance row.width)

end Sys2Proof.Machine
end

