-- ==== Sys2Proof/Machine/Accesses.lean ====
section
/-! DEFINITION. The memory accesses of one step, in order (20_memory R36, R37): "fixed here so that a model that records an
event history records one history". They are a function of the state and no part of it (10_state R28; log entry 11). -/

namespace Sys2Proof.Machine

/-- One byte access of the core, with the byte read or written (20 R36). -/
inductive Access where
  | read (a : Address) (v : Word)
  | write (a : Address) (v : Word)
  deriving DecidableEq, Repr

/-- The read of a byte in a state. -/
def State.readAccess (s : State) (a : Address) : Access := .read a (s.memRead a)

/-- Phase 2, the operand bytes (R37): "Immediate reads nothing in this phase"; Implied reads nothing. -/
def State.operandAccesses (s : State) : Mode → List Access
  | .indexedIndirectX => [s.readAccess (s.pc + 1)]
  | .indirectIndexedY => [s.readAccess (s.pc + 1)]
  | .zeroPage => [s.readAccess (s.pc + 1)]
  | .zeroPageIndexedX => [s.readAccess (s.pc + 1)]
  | .immediate => []
  | .absoluteIndexedY => [s.readAccess (s.pc + 1), s.readAccess (s.pc + 2)]
  | .absolute => [s.readAccess (s.pc + 1), s.readAccess (s.pc + 2)]
  | .absoluteIndexedX => [s.readAccess (s.pc + 1), s.readAccess (s.pc + 2)]
  | .implied => []

/-- The address of the pointer an indirect mode reads (R37 phase 3; 40 R73, R74). -/
def State.pointerAddress (s : State) : Mode → Option Address
  | .indexedIndirectX => some (zext16 (s.operandByte + s.x))
  | .indirectIndexedY => some (zext16 s.operandByte)
  | .zeroPage => none
  | .zeroPageIndexedX => none
  | .immediate => none
  | .absoluteIndexedY => none
  | .absolute => none
  | .absoluteIndexedX => none
  | .implied => none

/-- Phase 3, the pointer (R37): "read `p`, then `(p+1) mod 65536`". -/
def State.pointerAccesses (s : State) (m : Mode) : List Access :=
  match s.pointerAddress m with
  | none => []
  | some p => [s.readAccess p, s.readAccess (p + 1)]

/-- Phase 4 (R37): the mnemonics that read the byte at `ea`. -/
def readsData (m : Mnemonic) : Bool :=
  [Mnemonic.lda, .ldx, .ldy, .eor, .ora, .adc, .sbc, .inc, .rol, .ror, .asl, .lsr].contains m

/-- Phase 5 (R37): the mnemonics that write the byte at `ea`. -/
def writesData (m : Mnemonic) : Bool :=
  [Mnemonic.sta, .stx, .sty, .inc, .rol, .ror, .asl, .lsr].contains m

/-- The byte a mnemonic writes at `ea` (41 R93 to R95, 42 R110, 45 R135 to R138); none where it writes none. -/
def State.storedByte (s : State) (ea : Address) : Mnemonic → Option Word
  | .sta => some s.ac
  | .stx => some s.x
  | .sty => some s.y
  | .inc => some (s.memRead ea + 1)
  | .rol => some (shiftLeftIn (s.memRead ea) (s.flag .carry))
  | .ror => some (shiftRightIn (s.memRead ea) (s.flag .carry))
  | .asl => some (shiftLeftIn (s.memRead ea) false)
  | .lsr => some (shiftRightIn (s.memRead ea) false)
  | _ => none

/-- Phases 4 and 5 (R37): the data read, then the data write, of a mnemonic at its effective address. -/
def State.dataAccesses (s : State) (m : Mnemonic) (ea : Address) : List Access :=
  (if readsData m then [s.readAccess ea] else []) ++
  match s.storedByte ea m with
  | none => []
  | some v => [.write ea v]

/-- The accesses of the step from a state, in order (R37): the opcode; for an assigned opcode its operand bytes, pointer
bytes and data; for an unassigned one no other. -/
def State.stepAccesses (s : State) : List Access :=
  s.readAccess s.pc ::
  match specDecode (s.memRead s.pc) with
  | none => []
  | some row =>
    s.operandAccesses row.mode ++ s.pointerAccesses row.mode ++
    match s.resolve row.mode with
    | none => []
    | some ea => s.dataAccesses row.mnemonic ea

/-- The memory after an access. -/
def Access.apply (m : Memory) : Access → Memory
  | .read _ _ => m
  | .write a v => m.write a.toNat v

/-- The address an instruction stores a byte to: its effective address where its mnemonic writes data, else none. -/
def State.storeAddress (s : State) (i : Instr) : Option Address :=
  if writesData i.mnemonic then s.effectiveAddress i else none

end Sys2Proof.Machine
end

