-- ==== Sys2Proof/Machine/Assembler.lean ====
section
/-! DEFINITION. Assembling (30_encoding R62): the bytes an instruction form emits, and the operand syntax the spec's examples
use. There are no pseudo-instructions (R63). -/

namespace Sys2Proof

/-- The operand's bytes in the instruction, low byte first (30 R51). -/
def Operand.toBytes : Operand → List Word
  | .none => []
  | .byte d => [d]
  | .word a => [lowByte a, highByte a]

/-- The instruction of a form read from one row of the opcode table, if the row is the form's. -/
def rowInstr (f : Form) (row : OpcodeRow) : Option Instr :=
  match row.2.fill f.operand.toBytes with
  | some (i, []) => if i.mnemonic = f.mnemonic ∧ i.mode = f.mode then some i else none
  | _ => none

/-- The instruction of a form; none for a combination with `-` in R57, which "does not assemble" (30 R62), and for an
operand that does not fit the mode. -/
def Form.toInstr (f : Form) : Option Instr := opcodeTable.findSome? (rowInstr f)

/-- The bytes a form emits (30 R62, column "bytes emitted"). -/
def Form.assemble (f : Form) : Option (List Word) := f.toInstr.map encode

/-- One hexadecimal digit. -/
def hexDigit (n : Nat) : Char :=
  ['0', '1', '2', '3', '4', '5', '6', '7', '8', '9', 'A', 'B', 'C', 'D', 'E', 'F'].getD n '0'

/-- `nn`: two hexadecimal digits (30 R62). -/
def hexByte (w : Word) : List Char := [hexDigit (w.toNat / 16), hexDigit (w.toNat % 16)]

/-- `nnnn`: four hexadecimal digits, high byte first (30 R62). -/
def hexWord (a : Address) : List Char := hexByte (highByte a) ++ hexByte (lowByte a)

/-- The digits of an operand. -/
def Operand.digits : Operand → List Char
  | .none => []
  | .byte d => hexByte d
  | .word a => hexWord a

/-- A mnemonic as the document writes it, in lower case. -/
def Mnemonic.text : Mnemonic → List Char
  | .lda => ['l', 'd', 'a']
  | .ldx => ['l', 'd', 'x']
  | .ldy => ['l', 'd', 'y']
  | .sta => ['s', 't', 'a']
  | .stx => ['s', 't', 'x']
  | .sty => ['s', 't', 'y']
  | .tax => ['t', 'a', 'x']
  | .tay => ['t', 'a', 'y']
  | .txa => ['t', 'x', 'a']
  | .tya => ['t', 'y', 'a']
  | .tsx => ['t', 's', 'x']
  | .txs => ['t', 'x', 's']
  | .inc => ['i', 'n', 'c']
  | .inx => ['i', 'n', 'x']
  | .iny => ['i', 'n', 'y']
  | .dex => ['d', 'e', 'x']
  | .dey => ['d', 'e', 'y']
  | .eor => ['e', 'o', 'r']
  | .ora => ['o', 'r', 'a']
  | .adc => ['a', 'd', 'c']
  | .sbc => ['s', 'b', 'c']
  | .rol => ['r', 'o', 'l']
  | .ror => ['r', 'o', 'r']
  | .asl => ['a', 's', 'l']
  | .lsr => ['l', 's', 'r']
  | .sec => ['s', 'e', 'c']
  | .clc => ['c', 'l', 'c']
  | .sed => ['s', 'e', 'd']
  | .cld => ['c', 'l', 'd']
  | .sei => ['s', 'e', 'i']
  | .cli => ['c', 'l', 'i']
  | .clv => ['c', 'l', 'v']
  | .nop => ['n', 'o', 'p']

/-- What the syntax of a mode puts before the operand's digits (30 R62). -/
def Mode.prefixText : Mode → List Char
  | .indexedIndirectX => [' ', '(', '$']
  | .indirectIndexedY => [' ', '(', '$']
  | .zeroPage => [' ', '$']
  | .zeroPageIndexedX => [' ', '$']
  | .immediate => [' ', '#', '$']
  | .absoluteIndexedY => [' ', '$']
  | .absolute => [' ', '$']
  | .absoluteIndexedX => [' ', '$']
  | .implied => []

/-- What the syntax of a mode puts after the operand's digits (30 R62). -/
def Mode.suffixText : Mode → List Char
  | .indexedIndirectX => [',', 'x', ')']
  | .indirectIndexedY => [')', ',', 'y']
  | .zeroPage => []
  | .zeroPageIndexedX => [',', 'x']
  | .immediate => []
  | .absoluteIndexedY => [',', 'y']
  | .absolute => []
  | .absoluteIndexedX => [',', 'x']
  | .implied => []

/-- A form in assembler syntax (30 R62). -/
def Form.text (f : Form) : List Char := f.mnemonic.text ++ f.mode.prefixText ++ f.operand.digits ++ f.mode.suffixText

end Sys2Proof
end

