-- ==== Sys2Proof/Machine/Interface.lean ====
section
/-! DEFINITION. The boundary operations of the core as the host sees them (70_reset_and_hazards R195, R200): Step with the
state it leaves, and Inspection. Construction is `State.construct` (Machine/Ops.lean). The host has no fourth operation. -/

namespace Sys2Proof.Machine

/-- Step as the host calls it (70 R195): the result, and the state the core is in afterwards. A step that raises leaves the
state exactly as before it (60 R175, R179). -/
def State.hostStep (s : State) : Host.Outcome Unit Fault Refusal × State :=
  match step s with
  | .next t => (.next (), t)
  | .fault f => (.fault f, s)
  | .refused r => (.refused r, s)

/-- The number of the single cause, where one is needed (60 R176): "no rule depends on it". -/
def Fault.causeNumber : Fault → Nat
  | .unrecognizedOpcode _ _ => 1

/-- The registers the host can read (70 R199). -/
inductive RegisterName where
  | pc
  | ac
  | x
  | y
  | sp
  | sr
  deriving DecidableEq, Repr

/-- Inspect register (70 R195, R199): the current value, as a number; it changes no state. -/
def State.inspectRegister (s : State) : RegisterName → Nat
  | .pc => s.pc.toNat
  | .ac => s.ac.toNat
  | .x => s.x.toNat
  | .y => s.y.toNat
  | .sp => s.sp.toNat
  | .sr => s.sr.toNat

/-- Inspect memory (70 R195, R199): any byte, without re-entering the execute path; it changes no state. -/
def State.inspectMemory (s : State) (a : Address) : Word := s.memRead a

end Sys2Proof.Machine
end

