-- ==== Sys2Proof/Safety.lean ====
section
/-! DEFINITION. What the claims call a good state and a reachable one. A run of this core is safe while its memory is in
canonical form and bit 5 of `SR` reads 1; the only way a step can stop is UnrecognizedOpcode (60 R175, R177). -/

namespace Sys2Proof.Machine

/-- The invariant of the model: the memory list is canonical, and `SR` bit 5 is 1 (10_state R19). -/
abbrev State.Inv (s : State) : Prop := s.mem.wf = true ∧ s.sr.getLsbD 5 = true

/-- The states a core can be in: what some construction gives (70 R196), and what steps make of it. A step that raises
leaves the state as it was. -/
inductive Reachable (init : Config.Init) : State → Prop where
  | constructed (s : State) (h : State.construct init = .next s) : Reachable init s
  | stepped (s t : State) (hs : Reachable init s) (h : step s = .next t) : Reachable init t

end Sys2Proof.Machine
end

