-- ==== Sys2Proof/Certificates/Slice0/Obligations.lean ====
section
/-! DEFINITION. The statements for the provers, read from the numbered rules of spec/: first the words they share (what an
instruction leaves in `SR` and in memory, the forms of each mnemonic with their bytes), then the obligations. -/

namespace Sys2Proof.Machine

/-- `after` is the status byte `before` with the listed bits at the listed values and every other bit unchanged. -/
def Claims.SrChanges (before after : Word) (changed : List (Nat × Bool)) : Prop :=
  ∀ k < 8, after.getLsbD k = (changed.lookup k).getD (before.getLsbD k)

/-- The bits `SetZN(v)` writes (10_state R22): N is bit 7 of `v`, Z is `v == 0`. -/
def Claims.znBits (v : Word) : List (Nat × Bool) := [(7, v.getLsbD 7), (1, decide (v = 0))]

/-- `after` is the memory `before` with the byte at `ea` equal to `v`: every other address reads as before, and the list
stays canonical. The list must be canonical before, which `Obligations.StepKeepsTheInvariant` says of every step. -/
def Claims.StoresByte (before after : Memory) (ea : Address) (v : Word) : Prop :=
  before.wf = true →
    after.wf = true ∧ ∀ b : Address, after.read b.toNat = if b = ea then v else before.read b.toNat

/-- `pc` after an instruction of these bytes (47 R164). -/
def Claims.pcAfter (s : State) (bytes : List Word) : Address := s.pc + BitVec.ofNat 16 bytes.length

/-- The byte at an address given as a number, modulo 65536. -/
def Claims.byteAt (s : State) (n : Nat) : Nat := (s.mem.read (n % 65536)).toNat

/-- The little-endian word at an address given as a number, modulo 65536 (20 R32). -/
def Claims.wordAt (s : State) (n : Nat) : Nat := Claims.byteAt s n + 256 * Claims.byteAt s (n + 1)

/-- A Word read as signed (00_scope section 5): `w` if `w < 128`, else `w - 256`. -/
def Claims.signed (w : Word) : Int := if w.toNat < 128 then w.toNat else (w.toNat : Int) - 256

/-- `AC + b + c` as an unbounded integer (44 R125). -/
def Claims.sumOf (ac b : Word) (c : Bool) : Nat := ac.toNat + b.toNat + c.toNat

/-- The 133 unassigned bytes outside the generic family (30 R59). -/
def Claims.unassignedOutside : List Word :=
  [0x00, 0x02, 0x03, 0x04, 0x07, 0x08, 0x0A, 0x0B, 0x0C, 0x0F, 0x10, 0x12, 0x13, 0x14, 0x17, 0x1A, 0x1B, 0x1C,
   0x1F, 0x20, 0x22, 0x23, 0x24, 0x27, 0x28, 0x2A, 0x2B, 0x2C, 0x2F, 0x30, 0x32, 0x33, 0x34, 0x37, 0x3A, 0x3B] ++
  [0x3C, 0x3F, 0x40, 0x42, 0x43, 0x44, 0x47, 0x48, 0x4A, 0x4B, 0x4C, 0x4F, 0x50, 0x52, 0x53, 0x54, 0x57, 0x5A,
   0x5B, 0x5C, 0x5F, 0x60, 0x62, 0x63, 0x64, 0x67, 0x68, 0x6A, 0x6B, 0x6C, 0x6F, 0x70, 0x72, 0x73, 0x74, 0x77] ++
  [0x7A, 0x7B, 0x7C, 0x7F, 0x80, 0x82, 0x83, 0x87, 0x8B, 0x8F, 0x90, 0x92, 0x93, 0x97, 0x9B, 0x9C, 0x9F, 0xA3,
   0xA7, 0xAB, 0xAF, 0xB0, 0xB2, 0xB3, 0xB7, 0xBB, 0xBF, 0xC0, 0xC2, 0xC3, 0xC4, 0xC7, 0xCB, 0xCC, 0xCF, 0xD0] ++
  [0xD2, 0xD3, 0xD4, 0xD7, 0xDA, 0xDB, 0xDC, 0xDF, 0xE0, 0xE2, 0xE3, 0xE4, 0xE7, 0xEB, 0xEC, 0xEF, 0xF0, 0xF2,
   0xF3, 0xF4, 0xF7, 0xFA, 0xFB, 0xFC, 0xFF]

/-- The 25 unassigned bytes inside the generic family (30 R60). -/
def Claims.unassignedGeneric : List Word :=
  [0x21, 0x25, 0x29, 0x2D, 0x31, 0x35, 0x39, 0x3D, 0xC1, 0xC5, 0xC9, 0xCD, 0xD1, 0xD5, 0xD9, 0xDD, 0xC6, 0xCE,
   0xD6, 0xDE, 0x89, 0x96, 0x9E, 0xB6, 0xBE]

/-- The bits of `SR` each mnemonic writes: the rows of the flag matrix (10_state R27). -/
def Claims.writtenBits : Mnemonic → List Nat
  | .lda | .ldx | .ldy | .tax | .tay | .txa | .tya | .tsx => [7, 1]
  | .txs | .sta | .stx | .sty | .nop => []
  | .inc | .inx | .iny | .dex | .dey => [7, 1]
  | .eor | .ora => [7, 1]
  | .adc | .sbc => [7, 6, 1, 0]
  | .rol | .ror | .asl | .lsr => [7, 1, 0]
  | .sec | .clc => [0]
  | .sed | .cld => [3]
  | .sei | .cli => [2]
  | .clv => [6]

/-- The flag instructions (46 R145 to R151): the instruction, its byte, and the bit of `SR` it writes with its value. -/
def Claims.flagForms : List (Instr × Word × Nat × Bool) :=
  [(.sec, 0x38, 0, true), (.clc, 0x18, 0, false), (.sed, 0xF8, 3, true), (.cld, 0xD8, 3, false),
   (.sei, 0x78, 2, true), (.cli, 0x58, 2, false), (.clv, 0xB8, 6, false)]

/-- The overflow of `AC + b + c` by the signs: the operands' signs agree and the result's differs (44 R125). -/
def Claims.overflowBit (ac b : Word) (c : Bool) : Bool :=
  let r : Word := BitVec.ofNat 8 (Claims.sumOf ac b c)
  decide (ac.getLsbD 7 = b.getLsbD 7 ∧ r.getLsbD 7 ≠ ac.getLsbD 7)

/-- The instruction `i`, whose bytes are `bytes`, adds `b` and the Carry to `AC` (44 R125): the result, C, V, Z and N, and
nothing else. -/
def Claims.AddsInto (s : State) (i : Instr) (bytes : List Word) (b : Word) : Prop :=
  let c := s.sr.getLsbD 0
  let t := Claims.sumOf s.ac b c
  let r : Word := BitVec.ofNat 8 t
  ∃ sr', Claims.SrChanges s.sr sr' ((0, decide (256 ≤ t)) :: (6, Claims.overflowBit s.ac b c) :: Claims.znBits r) ∧
    exec i s = .next { s with ac := r, sr := sr', pc := Claims.pcAfter s bytes }

/-- The forms of `lda` (R90): the instruction, its bytes, and the byte it reads. -/
def Claims.ldaForms (s : State) (d : Word) (a : Address) : List (Instr × List Word × Word) :=
  [(.ldaIzx d, [0xA1, d], s.memRead (s.eaIndexedIndirectX d)),
   (.ldaIzy d, [0xB1, d], s.memRead (s.eaIndirectIndexedY d)),
   (.ldaZp d, [0xA5, d], s.memRead (s.eaZeroPage d)),
   (.ldaZpx d, [0xB5, d], s.memRead (s.eaZeroPageIndexedX d)),
   (.ldaImm d, [0xA9, d], d),
   (.ldaAby a, [0xB9, lowByte a, highByte a], s.memRead (s.eaAbsoluteIndexedY a)),
   (.ldaAbs a, [0xAD, lowByte a, highByte a], s.memRead (s.eaAbsolute a)),
   (.ldaAbx a, [0xBD, lowByte a, highByte a], s.memRead (s.eaAbsoluteIndexedX a))]

/-- The forms of `ldx` (R91): the instruction, its bytes, and the byte it reads. -/
def Claims.ldxForms (s : State) (d : Word) (a : Address) : List (Instr × List Word × Word) :=
  [(.ldxZp d, [0xA6, d], s.memRead (s.eaZeroPage d)),
   (.ldxImm d, [0xA2, d], d),
   (.ldxAbs a, [0xAE, lowByte a, highByte a], s.memRead (s.eaAbsolute a))]

/-- The forms of `ldy` (R92): the instruction, its bytes, and the byte it reads. -/
def Claims.ldyForms (s : State) (d : Word) (a : Address) : List (Instr × List Word × Word) :=
  [(.ldyZp d, [0xA4, d], s.memRead (s.eaZeroPage d)),
   (.ldyZpx d, [0xB4, d], s.memRead (s.eaZeroPageIndexedX d)),
   (.ldyImm d, [0xA0, d], d),
   (.ldyAbs a, [0xAC, lowByte a, highByte a], s.memRead (s.eaAbsolute a)),
   (.ldyAbx a, [0xBC, lowByte a, highByte a], s.memRead (s.eaAbsoluteIndexedX a))]

/-- The forms of `sta` (R93): the instruction, its bytes, and its effective address. -/
def Claims.staForms (s : State) (d : Word) (a : Address) : List (Instr × List Word × Address) :=
  [(.staIzx d, [0x81, d], s.eaIndexedIndirectX d),
   (.staIzy d, [0x91, d], s.eaIndirectIndexedY d),
   (.staZp d, [0x85, d], s.eaZeroPage d),
   (.staZpx d, [0x95, d], s.eaZeroPageIndexedX d),
   (.staAby a, [0x99, lowByte a, highByte a], s.eaAbsoluteIndexedY a),
   (.staAbs a, [0x8D, lowByte a, highByte a], s.eaAbsolute a),
   (.staAbx a, [0x9D, lowByte a, highByte a], s.eaAbsoluteIndexedX a)]

/-- The forms of `stx` (R94): the instruction, its bytes, and its effective address. -/
def Claims.stxForms (s : State) (d : Word) (a : Address) : List (Instr × List Word × Address) :=
  [(.stxZp d, [0x86, d], s.eaZeroPage d),
   (.stxAbs a, [0x8E, lowByte a, highByte a], s.eaAbsolute a)]

/-- The forms of `sty` (R95): the instruction, its bytes, and its effective address. -/
def Claims.styForms (s : State) (d : Word) (a : Address) : List (Instr × List Word × Address) :=
  [(.styZp d, [0x84, d], s.eaZeroPage d),
   (.styZpx d, [0x94, d], s.eaZeroPageIndexedX d),
   (.styAbs a, [0x8C, lowByte a, highByte a], s.eaAbsolute a)]

/-- The forms of `inc` (R110): the instruction, its bytes, and its effective address. -/
def Claims.incForms (s : State) (d : Word) (a : Address) : List (Instr × List Word × Address) :=
  [(.incZp d, [0xE6, d], s.eaZeroPage d),
   (.incZpx d, [0xF6, d], s.eaZeroPageIndexedX d),
   (.incAbs a, [0xEE, lowByte a, highByte a], s.eaAbsolute a),
   (.incAbx a, [0xFE, lowByte a, highByte a], s.eaAbsoluteIndexedX a)]

/-- The forms of `eor` (R120): the instruction, its bytes, and the byte it reads. -/
def Claims.eorForms (s : State) (d : Word) (a : Address) : List (Instr × List Word × Word) :=
  [(.eorIzx d, [0x41, d], s.memRead (s.eaIndexedIndirectX d)),
   (.eorIzy d, [0x51, d], s.memRead (s.eaIndirectIndexedY d)),
   (.eorZp d, [0x45, d], s.memRead (s.eaZeroPage d)),
   (.eorZpx d, [0x55, d], s.memRead (s.eaZeroPageIndexedX d)),
   (.eorImm d, [0x49, d], d),
   (.eorAby a, [0x59, lowByte a, highByte a], s.memRead (s.eaAbsoluteIndexedY a)),
   (.eorAbs a, [0x4D, lowByte a, highByte a], s.memRead (s.eaAbsolute a)),
   (.eorAbx a, [0x5D, lowByte a, highByte a], s.memRead (s.eaAbsoluteIndexedX a))]

/-- The forms of `ora` (R121): the instruction, its bytes, and the byte it reads. -/
def Claims.oraForms (s : State) (d : Word) (a : Address) : List (Instr × List Word × Word) :=
  [(.oraIzx d, [0x01, d], s.memRead (s.eaIndexedIndirectX d)),
   (.oraIzy d, [0x11, d], s.memRead (s.eaIndirectIndexedY d)),
   (.oraZp d, [0x05, d], s.memRead (s.eaZeroPage d)),
   (.oraZpx d, [0x15, d], s.memRead (s.eaZeroPageIndexedX d)),
   (.oraImm d, [0x09, d], d),
   (.oraAby a, [0x19, lowByte a, highByte a], s.memRead (s.eaAbsoluteIndexedY a)),
   (.oraAbs a, [0x0D, lowByte a, highByte a], s.memRead (s.eaAbsolute a)),
   (.oraAbx a, [0x1D, lowByte a, highByte a], s.memRead (s.eaAbsoluteIndexedX a))]

/-- The forms of `adc` (R125): the instruction, its bytes, and the byte it reads. -/
def Claims.adcForms (s : State) (d : Word) (a : Address) : List (Instr × List Word × Word) :=
  [(.adcIzx d, [0x61, d], s.memRead (s.eaIndexedIndirectX d)),
   (.adcIzy d, [0x71, d], s.memRead (s.eaIndirectIndexedY d)),
   (.adcZp d, [0x65, d], s.memRead (s.eaZeroPage d)),
   (.adcZpx d, [0x75, d], s.memRead (s.eaZeroPageIndexedX d)),
   (.adcImm d, [0x69, d], d),
   (.adcAby a, [0x79, lowByte a, highByte a], s.memRead (s.eaAbsoluteIndexedY a)),
   (.adcAbs a, [0x6D, lowByte a, highByte a], s.memRead (s.eaAbsolute a)),
   (.adcAbx a, [0x7D, lowByte a, highByte a], s.memRead (s.eaAbsoluteIndexedX a))]

/-- The forms of `sbc` (R126): the instruction, its bytes, and the byte it reads. -/
def Claims.sbcForms (s : State) (d : Word) (a : Address) : List (Instr × List Word × Word) :=
  [(.sbcIzx d, [0xE1, d], s.memRead (s.eaIndexedIndirectX d)),
   (.sbcIzy d, [0xF1, d], s.memRead (s.eaIndirectIndexedY d)),
   (.sbcZp d, [0xE5, d], s.memRead (s.eaZeroPage d)),
   (.sbcZpx d, [0xF5, d], s.memRead (s.eaZeroPageIndexedX d)),
   (.sbcImm d, [0xE9, d], d),
   (.sbcAby a, [0xF9, lowByte a, highByte a], s.memRead (s.eaAbsoluteIndexedY a)),
   (.sbcAbs a, [0xED, lowByte a, highByte a], s.memRead (s.eaAbsolute a)),
   (.sbcAbx a, [0xFD, lowByte a, highByte a], s.memRead (s.eaAbsoluteIndexedX a))]

/-- The forms of `rol` (R135): the instruction, its bytes, and its effective address. -/
def Claims.rolForms (s : State) (d : Word) (a : Address) : List (Instr × List Word × Address) :=
  [(.rolZp d, [0x26, d], s.eaZeroPage d),
   (.rolZpx d, [0x36, d], s.eaZeroPageIndexedX d),
   (.rolAbs a, [0x2E, lowByte a, highByte a], s.eaAbsolute a),
   (.rolAbx a, [0x3E, lowByte a, highByte a], s.eaAbsoluteIndexedX a)]

/-- The forms of `ror` (R136): the instruction, its bytes, and its effective address. -/
def Claims.rorForms (s : State) (d : Word) (a : Address) : List (Instr × List Word × Address) :=
  [(.rorZp d, [0x66, d], s.eaZeroPage d),
   (.rorZpx d, [0x76, d], s.eaZeroPageIndexedX d),
   (.rorAbs a, [0x6E, lowByte a, highByte a], s.eaAbsolute a),
   (.rorAbx a, [0x7E, lowByte a, highByte a], s.eaAbsoluteIndexedX a)]

/-- The forms of `asl` (R137): the instruction, its bytes, and its effective address. -/
def Claims.aslForms (s : State) (d : Word) (a : Address) : List (Instr × List Word × Address) :=
  [(.aslZp d, [0x06, d], s.eaZeroPage d),
   (.aslZpx d, [0x16, d], s.eaZeroPageIndexedX d),
   (.aslAbs a, [0x0E, lowByte a, highByte a], s.eaAbsolute a),
   (.aslAbx a, [0x1E, lowByte a, highByte a], s.eaAbsoluteIndexedX a)]

/-- The forms of `lsr` (R138): the instruction, its bytes, and its effective address. -/
def Claims.lsrForms (s : State) (d : Word) (a : Address) : List (Instr × List Word × Address) :=
  [(.lsrZp d, [0x46, d], s.eaZeroPage d),
   (.lsrZpx d, [0x56, d], s.eaZeroPageIndexedX d),
   (.lsrAbs a, [0x4E, lowByte a, highByte a], s.eaAbsolute a),
   (.lsrAbx a, [0x5E, lowByte a, highByte a], s.eaAbsoluteIndexedX a)]

end Sys2Proof.Machine

open Sys2Proof Sys2Proof.Machine

/-- O1. Decoding the bytes of any instruction gives it back. The opcode map by mnemonic (30 R57), the formats (R51) and the map by opcode (R56) agree, and no operand bit is lost. -/
def Obligations.DecodeOfEncodeIsTheInstruction : Prop :=
  ∀ (i : Instr) (rest : List Word), decode (encode i ++ rest) = .ok (i, rest)

/-- O2. Whatever decodes is the encoding of what it decodes to. "A sequence of bytes therefore has exactly one parse from a given starting address" (30 R61). -/
def Obligations.DecodedBytesAreTheEncoding : Prop :=
  ∀ (bytes rest : List Word) (i : Instr), decode bytes = .ok (i, rest) → bytes = encode i ++ rest

/-- O3. Words written out from the spec decode to their instructions. Words of every family from 30 R57 and the listings of 95_test_vectors. -/
def Obligations.SpecWordsDecode : Prop :=
  decode [0xA1, 0x20] = .ok (.ldaIzx 0x20, []) ∧ decode [0x8D, 0x34, 0x12] = .ok (.staAbs 0x1234, []) ∧
  decode [0xBC, 0x34, 0x12] = .ok (.ldyAbx 0x1234, []) ∧ decode [0x9A] = .ok (.txs, []) ∧
  decode [0xF6, 0x10] = .ok (.incZpx 0x10, []) ∧ decode [0xCA] = .ok (.dex, []) ∧
  decode [0x51, 0x20] = .ok (.eorIzy 0x20, []) ∧ decode [0x1D, 0x34, 0x12] = .ok (.oraAbx 0x1234, []) ∧
  decode [0x69, 0x01] = .ok (.adcImm 0x01, []) ∧ decode [0xF9, 0x00, 0x30] = .ok (.sbcAby 0x3000, []) ∧
  decode [0x2E, 0x34, 0x12] = .ok (.rolAbs 0x1234, []) ∧ decode [0x56, 0x10] = .ok (.lsrZpx 0x10, []) ∧
  decode [0xB8] = .ok (.clv, []) ∧ decode [0xEA] = .ok (.nop, [])

/-- O4. Each of the 158 unassigned bytes raises UnrecognizedOpcode and changes nothing. 30 R59 and 60 R175: the cause, the pair the error carries, and the state left exactly as it was. -/
def Obligations.UnassignedBytesRaise : Prop :=
  Claims.unassignedOutside.length = 133 ∧ Claims.unassignedGeneric.length = 25 ∧
  (∀ op : Word, decodeOpcode op = none ↔ op ∈ Claims.unassignedOutside ++ Claims.unassignedGeneric) ∧
  (∀ (op : Word) (bytes rest : List Word), decode (op :: bytes) = .ok (.nop, rest) → op = 0xEA) ∧
  ∀ s : State, s.memRead s.pc ∈ Claims.unassignedOutside ++ Claims.unassignedGeneric →
    s.hostStep = (.fault (.unrecognizedOpcode s.pc (s.memRead s.pc)), s) ∧
    s.stepAccesses = [.read s.pc (s.memRead s.pc)]

/-- O5. A known addressing-mode family without a mnemonic is an error. 30 R60; in particular opcode 0x21 does not execute `adc`. -/
def Obligations.GenericBytesWithoutMnemonicRaise : Prop :=
  ∀ op ∈ Claims.unassignedGeneric, isGeneric op = true ∧ (genericMode op).isSome = true ∧ decodeOpcode op = none ∧
    ∀ s : State, s.memRead s.pc = op →
      step s = .fault (.unrecognizedOpcode s.pc op) ∧ s.stepAccesses = [.read s.pc op]

/-- O6. The closed-form mode equals the mode of the opcode table. 30 R54 and R55 (and the exhaustive check of 40 R71). -/
def Obligations.GenericModeIsTheModeOfTheTable : Prop :=
  (∀ op : Word, genericMode op =
    match (op &&& 0x0F).toNat, op.getLsbD 4 with
    | 0x1, false => some .indexedIndirectX
    | 0x1, true => some .indirectIndexedY
    | 0x5, false => some .zeroPage
    | 0x5, true => some .zeroPageIndexedX
    | 0x6, false => some .zeroPage
    | 0x6, true => some .zeroPageIndexedX
    | 0x9, false => some .immediate
    | 0x9, true => some .absoluteIndexedY
    | 0xD, false => some .absolute
    | 0xD, true => some .absoluteIndexedX
    | 0xE, false => some .absolute
    | 0xE, true => some .absoluteIndexedX
    | _, _ => none) ∧
  (∀ (i : Instr) (op : Word) (bytes : List Word), encode i = op :: bytes → isGeneric op = true →
    genericMode op = some i.mode ∧ (encode i).length = i.mode.width) ∧
  ∀ op ∈ [0x96, 0xB6, 0xBE, 0x9E], decodeOpcode op = none

/-- O7. An instruction is 1, 2 or 3 bytes, by its opcode alone, its operand at the next addresses. 30 R50. -/
def Obligations.OpcodeAloneDeterminesTheLength : Prop :=
  (∀ i : Instr, (encode i).length = i.mode.width) ∧
  [Mode.indexedIndirectX, .indirectIndexedY, .zeroPage, .zeroPageIndexedX, .immediate].map Mode.width = [2, 2, 2, 2, 2] ∧
  [Mode.absoluteIndexedY, .absolute, .absoluteIndexedX].map Mode.width = [3, 3, 3] ∧ Mode.implied.width = 1 ∧
  (∀ (i j : Instr), (encode i).head? = (encode j).head? → (encode i).length = (encode j).length) ∧
  ∀ (s : State) (i : Instr) (rest : List Word), decode s.fetchBytes = .ok (i, rest) →
    s.fetchBytes = ([s.memRead s.pc, s.memRead (s.pc + 1), s.memRead (s.pc + 2)]).take i.width ∧ rest = []

/-- O8. A form assembles exactly when the table has it, to the bytes of its instruction. 30 R62: "A combination of mnemonic and format with `-` in rule R57 does not assemble." -/
def Obligations.FormsAssembleExactlyByTheTable : Prop :=
  (∀ f : Form, f.toInstr.isSome = f.wellFormed) ∧ (∀ (f : Form) (i : Instr), f.toInstr = some i → i.form = f) ∧
  ∀ i : Instr, i.form.assemble = some (encode i)

/-- O9. SetZN writes Z and N from the value and no other bit. 10_state R22 and the example E1. -/
def Obligations.SetZNWritesZeroAndNegativeOnly : Prop :=
  ∀ (s : State) (v : Word), ∃ sr', Claims.SrChanges s.sr sr' (Claims.znBits v) ∧ s.setZN v = { s with sr := sr' } ∧
    ¬(sr'.getLsbD 1 = true ∧ sr'.getLsbD 7 = true)

/-- O10. clear, set and assign touch exactly the bits of their mask. 10_state R26: "must only ever touch the bits in `flags`, leaving others untouched". -/
def Obligations.StatusOperationsTouchOnlyTheirFlags : Prop :=
  ∀ (flags sr : Word) (c : Bool), ∀ k < 8,
    (clearFlags flags sr).getLsbD k = (if flags.getLsbD k then false else sr.getLsbD k) ∧
    (setFlags flags sr).getLsbD k = (if flags.getLsbD k then true else sr.getLsbD k) ∧
    (assignFlags flags c sr).getLsbD k = (if flags.getLsbD k then c else sr.getLsbD k)

/-- O11. A 16-bit read is two byte reads, low byte first, wrapping modulo 65536. 20 R32; reads change nothing, being functions of the state. -/
def Obligations.WordReadIsLittleEndianAndWraps : Prop :=
  ∀ s : State,
    (∀ a : Address, (s.memRead16 a).toNat =
      256 * (s.mem.read ((a.toNat + 1) % 65536)).toNat + (s.mem.read a.toNat).toNat) ∧
    s.memRead16 0xFFFF = joinBytes (s.memRead 0x0000) (s.memRead 0xFFFF) ∧
    s.memRead16 0x00FF = joinBytes (s.memRead 0x0100) (s.memRead 0x00FF)

/-- O12. A memory write sets one byte and changes no other location and no register. 20 R33. The premise is the invariant that every step keeps. -/
def Obligations.MemWriteChangesOneByte : Prop :=
  ∀ (s : State) (a : Address) (v : Word), s.mem.wf = true →
    (s.memWrite a v).mem.wf = true ∧ (∀ b : Address, (s.memWrite a v).memRead b = if b = a then v else s.memRead b) ∧
    s.memWrite a v = { s with mem := (s.memWrite a v).mem }

/-- O13. Construction gives every register and memory byte its supplied value, SR bit 5 forced to 1. 70 R196 (10_state R29). -/
def Obligations.ConstructionGivesTheSuppliedState : Prop :=
  ∀ init : Config.Init, init.bcd = .absent →
    ∃ t, State.construct init = .next t ∧ t.pc = init.pc ∧ t.ac = init.ac ∧ t.x = init.x ∧ t.y = init.y ∧ t.sp = init.sp ∧
      t.sr = init.sr ||| 0x20 ∧ Claims.SrChanges init.sr t.sr [(5, true)] ∧
      ∀ a : Address, t.memRead a = init.mem[a.toNat]'a.isLt

/-- O14. Every constructed state has canonical memory and SR bit 5 at 1. The invariant holds at the start of every run, for every choice of the caller. -/
def Obligations.ConstructedStateMeetsTheInvariant : Prop :=
  ∀ (init : Config.Init) (t : State), State.construct init = .next t → t.Inv

/-- O15. The reset state is TYPICAL_INIT at the start address the model chose, and meets the invariant. DESIGN CHOICE, log entries 1, 2 and 3: no value of the reset state is required by the spec (70 R197). -/
def Obligations.ResetIsATypicalConstruction : Prop :=
  State.construct (Config.typicalInit Config.resetPc) = .next State.reset ∧ State.reset.Inv

/-- O16. Every step keeps the memory canonical and SR bit 5 at 1. The invariant of Safety.lean, kept by every step from every state that meets it. -/
def Obligations.StepKeepsTheInvariant : Prop :=
  ∀ s t : State, s.Inv → step s = .next t → t.Inv

/-- O17. SR bit 5 is 1 in every reachable state, and no instruction writes it. 10_state R19. -/
def Obligations.IgnoredBitIsAlwaysOne : Prop :=
  (∀ (init : Config.Init) (t : State), State.construct init = .next t → t.sr.getLsbD 5 = true) ∧
  (∀ (i : Instr) (s t : State), exec i s = .next t → t.sr.getLsbD 5 = s.sr.getLsbD 5) ∧
  ∀ (init : Config.Init) (s : State), Reachable init s → s.sr.getLsbD 5 = true

/-- O18. SR bit 4 keeps its construction value for ever. 10_state R20. -/
def Obligations.BreakBitKeepsItsConstructionValue : Prop :=
  (∀ (i : Instr) (s t : State), exec i s = .next t → t.sr.getLsbD 4 = s.sr.getLsbD 4) ∧
  (∀ (init : Config.Init) (s : State), Reachable init s → s.sr.getLsbD 4 = init.sr.getLsbD 4) ∧
  decodeOpcode 0x00 = none

/-- O19. A step runs the instruction whose bytes lie at pc. 47 R160: every `Instr` is well-formed, so no premise on it is needed. -/
def Obligations.StepRunsTheDecodedInstruction : Prop :=
  (∀ (s : State) (i : Instr) (rest : List Word), decode s.fetchBytes = .ok (i, rest) → step s = exec i s) ∧
  ∀ (s : State) (i : Instr),
    (∀ k, (h : k < (encode i).length) → s.memRead (s.pc + BitVec.ofNat 16 k) = (encode i)[k]) →
      s.fetchBytes = encode i ∧ step s = exec i s

/-- O20. The step equals the five-phase step of the spec. 47 R160: `specStep` (Machine/Reference.lean) is its pseudocode. -/
def Obligations.StepIsTheSpecStep : Prop :=
  ∀ s : State, step s = specStep s

/-- O21. A step returns a new state or raises, by the byte at pc alone. 47 R163. -/
def Obligations.StepReturnsOrRaises : Prop :=
  ∀ s : State,
    (s.memRead s.pc ∉ Claims.unassignedOutside ++ Claims.unassignedGeneric →
      ∃ t, step s = .next t ∧ specStep s = .next t ∧ s.hostStep = (.next (), t)) ∧
    (s.memRead s.pc ∈ Claims.unassignedOutside ++ Claims.unassignedGeneric →
      ∃ e, step s = .fault e ∧ s.hostStep = (.fault e, s))

/-- O22. Every instruction completes, and pc moves only by its width. 47 R164; that every instruction completes is 60 R177 and R178. -/
def Obligations.PcAdvancesByTheWidthOnly : Prop :=
  (∀ (i : Instr) (s : State), ∃ t, exec i s = .next t ∧ t.pc.toNat = (s.pc.toNat + i.width) % 65536) ∧
  (∀ i : Instr, i.width = 1 ∨ i.width = 2 ∨ i.width = 3) ∧
  (∀ s t : State, step s = .next t →
    ∃ i, decode s.fetchBytes = .ok (i, []) ∧ t.pc.toNat = (s.pc.toNat + i.width) % 65536) ∧
  ∀ op ∈ [0x10, 0x30, 0x50, 0x70, 0x90, 0xB0, 0xD0, 0xF0, 0x4C, 0x6C, 0x20, 0x60, 0x40, 0x00], decodeOpcode op = none

/-- O23. The instruction stream wraps from 0xFFFF to 0x0000. 47 R165. -/
def Obligations.InstructionStreamWraps : Prop :=
  ∀ s : State,
    (∀ (i : Instr) (t : State), exec i s = .next t → s.pc.toNat + i.width = 65536 → t.pc = 0x0000) ∧
    (s.pc = 0xFFFF → s.operandByte = s.memRead 0x0000 ∧ s.operandWord = joinBytes (s.memRead 0x0001) (s.memRead 0x0000) ∧
      ∀ (i : Instr) (t : State), exec i s = .next t → t.pc.toNat + 1 = i.width)

/-- O24. After an error the state is unchanged and stepping again raises the same error. 60 R179 and R180. -/
def Obligations.ErrorRepeatsOnTheSameState : Prop :=
  ∀ (s t : State) (e : Fault), s.hostStep = (.fault e, t) → t = s ∧ t.hostStep = (.fault e, t)

/-- O25. The access history of a step: reads, then at most one write, which is all that changes memory. 20 R36, R37 and Q5 of 95_test_vectors; the history is a function of the state (log entry 11). -/
def Obligations.AccessesExplainTheMemory : Prop :=
  ∀ s t : State, step s = .next t →
    ∃ (reads : List Address) (writes : List (Address × Word)),
      s.stepAccesses = s.readAccess s.pc :: reads.map s.readAccess ++ writes.map (fun w => .write w.1 w.2) ∧
      writes.length ≤ 1 ∧ s.stepAccesses.length ≤ 5 ∧ t.mem = s.stepAccesses.foldl Access.apply s.mem ∧
      ∀ i, decode s.fetchBytes = .ok (i, []) → (writes ≠ [] ↔ writesData i.mnemonic = true)

/-- O26. Every byte but the one stored to reads as before, and that one reads the stored byte. The memory frame of the whole instruction set, through the model's own effective address. -/
def Obligations.OnlyTheEffectiveAddressIsWritten : Prop :=
  ∀ (i : Instr) (s : State), s.mem.wf = true →
    ∃ t, exec i s = .next t ∧ (∀ a : Address, s.storeAddress i ≠ some a → t.memRead a = s.memRead a) ∧
      ∀ ea, s.storeAddress i = some ea → s.storedByte ea i.mnemonic = some (t.memRead ea)

/-- O27. A byte stored by one step is fetched by the next. 20 R43: no fence, no cache operation and no delay. -/
def Obligations.NextFetchSeesTheStore : Prop :=
  ∀ (i : Instr) (s t : State) (ea : Address), s.mem.wf = true → exec i s = .next t → s.storeAddress i = some ea →
    (ea = t.pc → t.fetchBytes.head? = s.storedByte ea i.mnemonic) ∧
    (ea = t.pc + 1 → some t.operandByte = s.storedByte ea i.mnemonic)

/-- O28. The eight addressing modes resolve by the document's formulas. 40 R73 to R80; the resolver is a function, so it writes nothing and raises nothing (R70). -/
def Obligations.ResolverFormulas : Prop :=
  ∀ s : State,
    let d := Claims.byteAt s (s.pc.toNat + 1)
    let a := Claims.wordAt s (s.pc.toNat + 1)
    let x := s.x.toNat
    let y := s.y.toNat
    let ea := fun m => (s.resolve m).map BitVec.toNat
    (ea .indexedIndirectX = some (Claims.wordAt s ((d + x) % 256)) ∧ Mode.indexedIndirectX.width = 2) ∧
    (ea .indirectIndexedY = some ((Claims.wordAt s d + y) % 65536) ∧ Mode.indirectIndexedY.width = 2) ∧
    (ea .zeroPage = some d ∧ Mode.zeroPage.width = 2) ∧
    (ea .zeroPageIndexedX = some ((d + x) % 256) ∧ Mode.zeroPageIndexedX.width = 2) ∧
    (ea .immediate = some ((s.pc.toNat + 1) % 65536) ∧ Mode.immediate.width = 2) ∧
    (ea .absoluteIndexedY = some ((a + y) % 65536) ∧ Mode.absoluteIndexedY.width = 3) ∧
    (ea .absolute = some a ∧ Mode.absolute.width = 3) ∧
    (ea .absoluteIndexedX = some ((a + x) % 65536) ∧ Mode.absoluteIndexedX.width = 3) ∧
    ea .implied = none

/-- O29. The operand a decoded instruction carries resolves to the address Resolve(mode) reads at pc. Why a meaning may use the operand of its instruction where the spec reads it at `pc` (log entry 8). -/
def Obligations.DecodedOperandResolvesTheSameAddress : Prop :=
  ∀ (s : State) (i : Instr) (rest : List Word), decode s.fetchBytes = .ok (i, rest) →
    s.effectiveAddress i = s.resolve i.mode ∧
    ∀ d, i.mode = .immediate → i.form.operand = .byte d → d = s.memRead s.eaImmediate

/-- O30. ZeroPage and ZeroPageIndexedX addresses, and the pointer addresses, lie below 0x0100. 40 R73 to R76, property Q13 of 95_test_vectors. -/
def Obligations.ZeroPageModesStayInTheZeroPage : Prop :=
  ∀ (s : State) (d : Word),
    (s.eaZeroPage d).toNat < 256 ∧ (s.eaZeroPageIndexedX d).toNat < 256 ∧
    ∀ (m : Mode) (p : Address), s.pointerAddress m = some p → p.toNat < 256

/-- O31. Each instruction writes only the flags of its row in the flag matrix. 10_state R27: "never incidentally cleared by unrelated instructions"; property Q6. -/
def Obligations.FlagDisciplineMatrix : Prop :=
  ∀ (i : Instr) (s : State), ∃ t, exec i s = .next t ∧
    (∀ k < 8, k ∉ Claims.writtenBits i.mnemonic → t.sr.getLsbD k = s.sr.getLsbD k) ∧
    (1 ∈ Claims.writtenBits i.mnemonic → ¬(t.sr.getLsbD 1 = true ∧ t.sr.getLsbD 7 = true))

/-- O32. Each register is written only by the instructions the register table lists. 10_state R10, the column "written by". -/
def Obligations.RegistersHaveOnlyTheirWriters : Prop :=
  ∀ (i : Instr) (s : State), ∃ t, exec i s = .next t ∧
    (i.mnemonic ∉ [.lda, .txa, .tya, .eor, .ora, .adc, .sbc] → t.ac = s.ac) ∧
    (i.mnemonic ∉ [.ldx, .tax, .tsx, .inx, .dex] → t.x = s.x) ∧
    (i.mnemonic ∉ [.ldy, .tay, .iny, .dey] → t.y = s.y) ∧
    (i.mnemonic ≠ .txs → t.sp = s.sp)

/-- O33. No instruction reads a flag, except adc sbc rol ror reading Carry. 10_state R10: "`adc sbc rol ror` read `SR.C`; nothing else reads any flag". -/
def Obligations.NoFlagButCarryIsRead : Prop :=
  ∀ (i : Instr) (s : State) (sr' : Word),
    (i.mnemonic ∈ [.adc, .sbc, .rol, .ror] → sr'.getLsbD 0 = s.sr.getLsbD 0) →
    ∃ t u, exec i s = .next t ∧ exec i { s with sr := sr' } = .next u ∧ u = { t with sr := u.sr } ∧
      ∀ k ∈ Claims.writtenBits i.mnemonic, u.sr.getLsbD k = t.sr.getLsbD k

/-- O34. SP influences only tsx and is written only by txs. 10_state R14: "In this core it is storage only". -/
def Obligations.StackPointerIsStorageOnly : Prop :=
  ∀ (i : Instr) (s : State) (v : Word),
    (i ≠ .tsx → ∃ t, exec i s = .next t ∧
      exec i { s with sp := v } = .next { t with sp := if i = .txs then s.x else v }) ∧
    ∃ t, exec .tsx s = .next t ∧ t.x = s.sp ∧ t.sp = s.sp

/-- O35. adc and sbc compute in binary whatever SR.D holds; sed and cld still write the bit. 44 R128. What construction does with the other value of the option is the model's choice: O58. -/
def Obligations.DecimalFlagIsIgnoredByArithmetic : Prop :=
  (∀ (i : Instr) (s : State), i.mnemonic = .adc ∨ i.mnemonic = .sbc →
    ∃ t, exec i s = .next t ∧ t.sr.getLsbD 3 = s.sr.getLsbD 3 ∧
      exec i { s with sr := s.sr ^^^ 0x08 } = .next { t with sr := t.sr ^^^ 0x08 }) ∧
  (∀ s : State, ∃ t u, exec .sed s = .next t ∧ t.sr.getLsbD 3 = true ∧ exec .cld s = .next u ∧ u.sr.getLsbD 3 = false) ∧
  Config.bcdOption = .absent

/-- O36. lda loads AC from the byte at ea and sets Z and N. 41 R90. -/
def Obligations.LdaLoadsTheOperandByte : Prop :=
  (∀ (s : State) (d : Word) (a : Address), ∀ f ∈ Claims.ldaForms s d a,
    encode f.1 = f.2.1 ∧ isGeneric (f.2.1.headD 0) = true ∧
    ∃ sr', Claims.SrChanges s.sr sr' (Claims.znBits f.2.2) ∧
      exec f.1 s = .next { s with ac := f.2.2, sr := sr', pc := Claims.pcAfter s f.2.1 }) ∧
  (∀ (s : State) (ea : Address), s.dataAccesses .lda ea = [.read ea (s.memRead ea)])

/-- O37. ldx loads X from the byte at ea and sets Z and N; it has no indexed form. 41 R91. -/
def Obligations.LdxLoadsTheOperandByte : Prop :=
  (∀ (s : State) (d : Word) (a : Address), ∀ f ∈ Claims.ldxForms s d a,
    encode f.1 = f.2.1 ∧ isGeneric (f.2.1.headD 0) = decide (f.2.1.headD 0 ≠ 0xA2) ∧
    ∃ sr', Claims.SrChanges s.sr sr' (Claims.znBits f.2.2) ∧
      exec f.1 s = .next { s with x := f.2.2, sr := sr', pc := Claims.pcAfter s f.2.1 }) ∧
  (∀ (s : State) (ea : Address), s.dataAccesses .ldx ea = [.read ea (s.memRead ea)]) ∧
  decodeOpcode 0xB6 = none ∧ decodeOpcode 0xBE = none

/-- O38. ldy loads Y from the byte at ea and sets Z and N. 41 R92. -/
def Obligations.LdyLoadsTheOperandByte : Prop :=
  (∀ (s : State) (d : Word) (a : Address), ∀ f ∈ Claims.ldyForms s d a,
    encode f.1 = f.2.1 ∧ isGeneric (f.2.1.headD 0) = false ∧
    ∃ sr', Claims.SrChanges s.sr sr' (Claims.znBits f.2.2) ∧
      exec f.1 s = .next { s with y := f.2.2, sr := sr', pc := Claims.pcAfter s f.2.1 }) ∧
  (∀ (s : State) (ea : Address), s.dataAccesses .ldy ea = [.read ea (s.memRead ea)])

/-- O39. sta stores AC at ea and changes nothing else. 41 R93. -/
def Obligations.StaStoresTheRegister : Prop :=
  (∀ (s : State) (d : Word) (a : Address), ∀ f ∈ Claims.staForms s d a,
    encode f.1 = f.2.1 ∧ isGeneric (f.2.1.headD 0) = true ∧
    ∃ mem', Claims.StoresByte s.mem mem' f.2.2 s.ac ∧
      exec f.1 s = .next { s with mem := mem', pc := Claims.pcAfter s f.2.1 }) ∧
  (∀ (s : State) (ea : Address), s.dataAccesses .sta ea = [.write ea s.ac]) ∧
  (∀ (s : State) (d : Word), (s.eaZeroPage d).toNat < 256 ∧ (s.eaZeroPageIndexedX d).toNat < 256) ∧
  decodeOpcode 0x89 = none

/-- O40. stx stores X at ea and changes nothing else. 41 R94. -/
def Obligations.StxStoresTheRegister : Prop :=
  (∀ (s : State) (d : Word) (a : Address), ∀ f ∈ Claims.stxForms s d a,
    encode f.1 = f.2.1 ∧ isGeneric (f.2.1.headD 0) = true ∧
    ∃ mem', Claims.StoresByte s.mem mem' f.2.2 s.x ∧
      exec f.1 s = .next { s with mem := mem', pc := Claims.pcAfter s f.2.1 }) ∧
  (∀ (s : State) (ea : Address), s.dataAccesses .stx ea = [.write ea s.x]) ∧
  decodeOpcode 0x96 = none

/-- O41. sty stores Y at ea and changes nothing else. 41 R95. -/
def Obligations.StyStoresTheRegister : Prop :=
  (∀ (s : State) (d : Word) (a : Address), ∀ f ∈ Claims.styForms s d a,
    encode f.1 = f.2.1 ∧ isGeneric (f.2.1.headD 0) = false ∧
    ∃ mem', Claims.StoresByte s.mem mem' f.2.2 s.y ∧
      exec f.1 s = .next { s with mem := mem', pc := Claims.pcAfter s f.2.1 }) ∧
  (∀ (s : State) (ea : Address), s.dataAccesses .sty ea = [.write ea s.y])

/-- O42. Transfers copy the register and set Z and N; txs sets no flag. 41 R96 to R101. -/
def Obligations.TransfersCopyTheRegister : Prop :=
  ∀ s : State,
    (encode .tax = [0xAA] ∧ ∃ sr', Claims.SrChanges s.sr sr' (Claims.znBits s.ac) ∧
      exec .tax s = .next { s with x := s.ac, sr := sr', pc := s.pc + 1 }) ∧
    (encode .tay = [0xA8] ∧ ∃ sr', Claims.SrChanges s.sr sr' (Claims.znBits s.ac) ∧
      exec .tay s = .next { s with y := s.ac, sr := sr', pc := s.pc + 1 }) ∧
    (encode .txa = [0x8A] ∧ ∃ sr', Claims.SrChanges s.sr sr' (Claims.znBits s.x) ∧
      exec .txa s = .next { s with ac := s.x, sr := sr', pc := s.pc + 1 }) ∧
    (encode .tya = [0x98] ∧ ∃ sr', Claims.SrChanges s.sr sr' (Claims.znBits s.y) ∧
      exec .tya s = .next { s with ac := s.y, sr := sr', pc := s.pc + 1 }) ∧
    (encode .tsx = [0xBA] ∧ ∃ sr', Claims.SrChanges s.sr sr' (Claims.znBits s.sp) ∧
      exec .tsx s = .next { s with x := s.sp, sr := sr', pc := s.pc + 1 }) ∧
    (encode .txs = [0x9A] ∧ exec .txs s = .next { s with sp := s.x, pc := s.pc + 1 })

/-- O43. inc adds 1 modulo 256 to the byte at ea and sets Z and N, not C or V. 42 R110. -/
def Obligations.IncIncrementsTheMemoryByte : Prop :=
  (∀ (s : State) (d : Word) (a : Address), ∀ f ∈ Claims.incForms s d a,
    encode f.1 = f.2.1 ∧ isGeneric (f.2.1.headD 0) = true ∧
    let r : Word := BitVec.ofNat 8 ((s.memRead f.2.2).toNat + 1)
    ∃ mem' sr', Claims.StoresByte s.mem mem' f.2.2 r ∧ Claims.SrChanges s.sr sr' (Claims.znBits r) ∧
      exec f.1 s = .next { s with mem := mem', sr := sr', pc := Claims.pcAfter s f.2.1 }) ∧
  ∀ (s : State) (ea : Address), s.dataAccesses .inc ea =
    [.read ea (s.memRead ea), .write ea (BitVec.ofNat 8 ((s.memRead ea).toNat + 1))]

/-- O44. inx iny dex dey add or subtract 1 modulo 256 and set Z and N, not C or V. 42 R111 to R114; minus 1 modulo 256 is plus 255. -/
def Obligations.RegisterIncrementsAndDecrements : Prop :=
  ∀ s : State,
    (encode .inx = [0xE8] ∧ let r : Word := BitVec.ofNat 8 (s.x.toNat + 1)
      ∃ sr', Claims.SrChanges s.sr sr' (Claims.znBits r) ∧
        exec .inx s = .next { s with x := r, sr := sr', pc := s.pc + 1 }) ∧
    (encode .iny = [0xC8] ∧ let r : Word := BitVec.ofNat 8 (s.y.toNat + 1)
      ∃ sr', Claims.SrChanges s.sr sr' (Claims.znBits r) ∧
        exec .iny s = .next { s with y := r, sr := sr', pc := s.pc + 1 }) ∧
    (encode .dex = [0xCA] ∧ let r : Word := BitVec.ofNat 8 (s.x.toNat + 255)
      ∃ sr', Claims.SrChanges s.sr sr' (Claims.znBits r) ∧
        exec .dex s = .next { s with x := r, sr := sr', pc := s.pc + 1 }) ∧
    (encode .dey = [0x88] ∧ let r : Word := BitVec.ofNat 8 (s.y.toNat + 255)
      ∃ sr', Claims.SrChanges s.sr sr' (Claims.znBits r) ∧
        exec .dey s = .next { s with y := r, sr := sr', pc := s.pc + 1 })

/-- O45. eor leaves the exclusive or in AC and sets Z and N. 43 R120. -/
def Obligations.EorCombinesIntoTheAccumulator : Prop :=
  (∀ (s : State) (d : Word) (a : Address), ∀ f ∈ Claims.eorForms s d a,
    encode f.1 = f.2.1 ∧ isGeneric (f.2.1.headD 0) = true ∧
    ∃ r sr', (∀ k < 8, r.getLsbD k = (s.ac.getLsbD k != f.2.2.getLsbD k)) ∧
      Claims.SrChanges s.sr sr' (Claims.znBits r) ∧
      exec f.1 s = .next { s with ac := r, sr := sr', pc := Claims.pcAfter s f.2.1 }) ∧
  ∀ (s : State) (ea : Address), s.dataAccesses .eor ea = [.read ea (s.memRead ea)]

/-- O46. ora leaves the inclusive or in AC and sets Z and N. 43 R121. -/
def Obligations.OraCombinesIntoTheAccumulator : Prop :=
  (∀ (s : State) (d : Word) (a : Address), ∀ f ∈ Claims.oraForms s d a,
    encode f.1 = f.2.1 ∧ isGeneric (f.2.1.headD 0) = true ∧
    ∃ r sr', (∀ k < 8, r.getLsbD k = (s.ac.getLsbD k || f.2.2.getLsbD k)) ∧
      Claims.SrChanges s.sr sr' (Claims.znBits r) ∧
      exec f.1 s = .next { s with ac := r, sr := sr', pc := Claims.pcAfter s f.2.1 }) ∧
  ∀ (s : State) (ea : Address), s.dataAccesses .ora ea = [.read ea (s.memRead ea)]

/-- O47. adc adds the operand and Carry to AC and sets C, V, Z and N. 44 R125. -/
def Obligations.AdcAddsWithCarry : Prop :=
  (∀ (s : State) (d : Word) (a : Address), ∀ f ∈ Claims.adcForms s d a,
    encode f.1 = f.2.1 ∧ isGeneric (f.2.1.headD 0) = true ∧ Claims.AddsInto s f.1 f.2.1 f.2.2 ∧
    Claims.overflowBit s.ac f.2.2 (s.sr.getLsbD 0) =
      decide (Claims.signed s.ac + Claims.signed f.2.2 + (s.sr.getLsbD 0).toNat < -128 ∨
        127 < Claims.signed s.ac + Claims.signed f.2.2 + (s.sr.getLsbD 0).toNat)) ∧
  ∀ (s : State) (ea : Address), s.dataAccesses .adc ea = [.read ea (s.memRead ea)]

/-- O48. sbc subtracts the operand and the borrow from AC and sets C (no borrow), V, Z and N. 44 R126 (C10, D7 for the polarity of Carry). -/
def Obligations.SbcSubtractsWithBorrow : Prop :=
  (∀ (s : State) (d : Word) (a : Address), ∀ f ∈ Claims.sbcForms s d a,
    encode f.1 = f.2.1 ∧ isGeneric (f.2.1.headD 0) = true ∧
    let b := f.2.2 ^^^ 0xFF
    let c := s.sr.getLsbD 0
    let difference : Int := s.ac.toNat - f.2.2.toNat - (1 - c.toNat)
    let signedDifference : Int := Claims.signed s.ac - Claims.signed f.2.2 - (1 - c.toNat)
    Claims.AddsInto s f.1 f.2.1 b ∧
    (BitVec.ofNat 8 (Claims.sumOf s.ac b c) : Word).toNat = difference % 256 ∧
    decide (256 ≤ Claims.sumOf s.ac b c) = decide (0 ≤ difference) ∧
    Claims.overflowBit s.ac b c = decide (signedDifference < -128 ∨ 127 < signedDifference)) ∧
  ∀ (s : State) (ea : Address), s.dataAccesses .sbc ea = [.read ea (s.memRead ea)]

/-- O49. The model's sum, carry and overflow agree with the three equivalent forms of the spec. 44 R127, forms (a), (b) and (c). -/
def Obligations.OverflowFormsAgree : Prop :=
  (∀ (a b : Word) (c : Bool),
    (sumResult a b c).toNat + 256 * (sumCarry a b c).toNat = Claims.sumOf a b c ∧
    sumOverflow a b c = Claims.overflowBit a b c ∧
    sumOverflow a b c = ((a ^^^ sumResult a b c) &&& (b ^^^ sumResult a b c)).getLsbD 7 ∧
    sumOverflow a b c = decide (Claims.signed a + Claims.signed b + c.toNat < -128 ∨
      127 < Claims.signed a + Claims.signed b + c.toNat)) ∧
  ∀ m : Word, Claims.signed (onesComplement m) = -Claims.signed m - 1

/-- O50. The numeric laws of immediate adc and sbc, and that sec sbc clc adc restores AC. Properties Q7 and Q8 of 95_test_vectors. -/
def Obligations.SubtractThenAddRestoresTheAccumulator : Prop :=
  ∀ (s : State) (m : Word),
    (∃ t, exec (.adcImm m) s = .next t ∧
      t.ac.toNat + 256 * (t.sr.getLsbD 0).toNat = s.ac.toNat + m.toNat + (s.sr.getLsbD 0).toNat) ∧
    (∃ t, exec (.sbcImm m) s = .next t ∧
      (t.ac.toNat : Int) - 256 * (1 - (t.sr.getLsbD 0).toNat) = s.ac.toNat - m.toNat - (1 - (s.sr.getLsbD 0).toNat)) ∧
    ∃ s1 s2 s3 s4, exec .sec s = .next s1 ∧ exec (.sbcImm m) s1 = .next s2 ∧ exec .clc s2 = .next s3 ∧
      exec (.adcImm m) s3 = .next s4 ∧ s4.ac = s.ac

/-- O51. rol rotates the byte at ea left through Carry. 45 R135. -/
def Obligations.RolRotatesTheMemoryByte : Prop :=
  (∀ (s : State) (d : Word) (a : Address), ∀ f ∈ Claims.rolForms s d a,
    encode f.1 = f.2.1 ∧ isGeneric (f.2.1.headD 0) = true ∧
    let m := s.memRead f.2.2
    let c := s.sr.getLsbD 0
    let r : Word := BitVec.ofNat 8 ((m.toNat <<< 1 ||| c.toNat) % 256)
    (∀ k < 8, r.getLsbD k = (if k = 0 then c else m.getLsbD (k - 1))) ∧
    ∃ mem' sr', Claims.StoresByte s.mem mem' f.2.2 r ∧
      Claims.SrChanges s.sr sr' ((0, m.getLsbD 7) :: Claims.znBits r) ∧
      exec f.1 s = .next { s with mem := mem', sr := sr', pc := Claims.pcAfter s f.2.1 }) ∧
  ∀ (s : State) (ea : Address),
    let m := s.memRead ea
    let c := s.sr.getLsbD 0
    s.dataAccesses .rol ea = [.read ea m, .write ea (BitVec.ofNat 8 ((m.toNat <<< 1 ||| c.toNat) % 256))]

/-- O52. ror rotates the byte at ea right through Carry. 45 R136. -/
def Obligations.RorRotatesTheMemoryByte : Prop :=
  (∀ (s : State) (d : Word) (a : Address), ∀ f ∈ Claims.rorForms s d a,
    encode f.1 = f.2.1 ∧ isGeneric (f.2.1.headD 0) = true ∧
    let m := s.memRead f.2.2
    let c := s.sr.getLsbD 0
    let r : Word := BitVec.ofNat 8 (m.toNat >>> 1 ||| c.toNat <<< 7)
    (∀ k < 8, r.getLsbD k = (if k = 7 then c else m.getLsbD (k + 1))) ∧
    ∃ mem' sr', Claims.StoresByte s.mem mem' f.2.2 r ∧
      Claims.SrChanges s.sr sr' ((0, m.getLsbD 0) :: Claims.znBits r) ∧
      exec f.1 s = .next { s with mem := mem', sr := sr', pc := Claims.pcAfter s f.2.1 }) ∧
  ∀ (s : State) (ea : Address),
    let m := s.memRead ea
    let c := s.sr.getLsbD 0
    s.dataAccesses .ror ea = [.read ea m, .write ea (BitVec.ofNat 8 (m.toNat >>> 1 ||| c.toNat <<< 7))]

/-- O53. asl shifts the byte at ea left; the old Carry is lost. 45 R137. -/
def Obligations.AslShiftsTheMemoryByte : Prop :=
  (∀ (s : State) (d : Word) (a : Address), ∀ f ∈ Claims.aslForms s d a,
    encode f.1 = f.2.1 ∧ isGeneric (f.2.1.headD 0) = true ∧
    let m := s.memRead f.2.2
    let r : Word := BitVec.ofNat 8 ((m.toNat <<< 1) % 256)
    (∀ k < 8, r.getLsbD k = (if k = 0 then false else m.getLsbD (k - 1))) ∧
    ∃ mem' sr', Claims.StoresByte s.mem mem' f.2.2 r ∧
      Claims.SrChanges s.sr sr' ((0, m.getLsbD 7) :: Claims.znBits r) ∧
      exec f.1 s = .next { s with mem := mem', sr := sr', pc := Claims.pcAfter s f.2.1 }) ∧
  ∀ (s : State) (ea : Address),
    let m := s.memRead ea
    s.dataAccesses .asl ea = [.read ea m, .write ea (BitVec.ofNat 8 ((m.toNat <<< 1) % 256))]

/-- O54. lsr shifts the byte at ea right; N becomes 0. 45 R138. -/
def Obligations.LsrShiftsTheMemoryByte : Prop :=
  (∀ (s : State) (d : Word) (a : Address), ∀ f ∈ Claims.lsrForms s d a,
    encode f.1 = f.2.1 ∧ isGeneric (f.2.1.headD 0) = true ∧
    let m := s.memRead f.2.2
    let r : Word := BitVec.ofNat 8 (m.toNat >>> 1)
    (∀ k < 8, r.getLsbD k = (if k = 7 then false else m.getLsbD (k + 1))) ∧
    ∃ mem' sr', Claims.StoresByte s.mem mem' f.2.2 r ∧
      Claims.SrChanges s.sr sr' ((0, m.getLsbD 0) :: Claims.znBits r) ∧
      exec f.1 s = .next { s with mem := mem', sr := sr', pc := Claims.pcAfter s f.2.1 }) ∧
  ∀ (s : State) (ea : Address),
    let m := s.memRead ea
    s.dataAccesses .lsr ea = [.read ea m, .write ea (BitVec.ofNat 8 (m.toNat >>> 1))]

/-- O55. rol then ror of one byte restores the memory and the Carry. Property Q9 of 95_test_vectors. -/
def Obligations.RotateLeftThenRightRestores : Prop :=
  ∀ (s : State) (d : Word), s.mem.wf = true →
    ∃ t u, exec (.rolZp d) s = .next t ∧ exec (.rorZp d) t = .next u ∧
      (∀ b : Address, u.memRead b = s.memRead b) ∧ u.sr.getLsbD 0 = s.sr.getLsbD 0

/-- O56. Each flag instruction sets or clears its one bit, changes nothing else, and is idempotent. 46 R145 to R151 and R153. -/
def Obligations.FlagInstructionsWriteOneBit : Prop :=
  ∀ s : State, ∀ f ∈ Claims.flagForms,
    encode f.1 = [f.2.1] ∧ f.2.2.1 ≠ 5 ∧
    ∃ sr', Claims.SrChanges s.sr sr' [f.2.2] ∧ exec f.1 s = .next { s with sr := sr', pc := s.pc + 1 } ∧
      exec f.1 { s with sr := sr', pc := s.pc + 1 } = .next { s with sr := sr', pc := s.pc + 2 }

/-- O57. nop only advances pc, and only 0xEA is nop. 46 R152. -/
def Obligations.NopOnlyAdvances : Prop :=
  encode .nop = [0xEA] ∧ (∀ s : State, exec .nop s = .next { s with pc := s.pc + 1 }) ∧
  (∀ (op : Word) (bytes rest : List Word), decode (op :: bytes) = .ok (.nop, rest) → op = 0xEA) ∧
  ∀ s : State, decodeOpcode (s.memRead s.pc) = none → ∃ e, step s = .fault e

/-- O58. The model refuses construction with BCD_OPTION present, and no state is reachable from one (the model's choice, log entry 7). DESIGN CHOICE, log entry 7: 92 D9 says that `present` must be refused; where, and by what name, is the model's. -/
def Obligations.ConstructionRefusesTheDecimalOption : Prop :=
  ∀ init : Config.Init,
    (State.construct init = .refused .bcdOptionPresent ↔ init.bcd = .present) ∧
    ((∃ t, State.construct init = .next t) ↔ init.bcd = .absent) ∧
    ∀ s : State, Reachable init s → init.bcd = .absent
end

