-- ==== Sys2Proof/Laws/Decode.lean ====
section
/-! SUPPORT. What decoding can answer, and what a fetch gives the decoder: no operand byte is missing and none is left over. -/

namespace Sys2Proof

/-- No opcode byte has two rows in the table (30_encoding R56). -/
theorem opcodeTable_nodup : (opcodeTable.map Prod.fst).Nodup := by decide

/-- A row the decoder finds is a row of the table. -/
theorem mem_opcodeTable_of_decodeOpcode {op : Word} {shape : Shape} (h : decodeOpcode op = some shape) :
    (op, shape) ∈ opcodeTable := by
  obtain ⟨before, after, hsplit, -⟩ := List.lookup_eq_some_iff.1 h
  simp [hsplit]

/-- A joined pair as a number: `hi :: lo = hi * 256 + lo` (00_scope section 5). -/
theorem toNat_joinBytes (h l : Word) : (joinBytes h l).toNat = 256 * h.toNat + l.toNat := by
  have hor : h.toNat <<< 8 ||| l.toNat = h.toNat <<< 8 + l.toNat := by
    rw [Nat.shiftLeft_eq, Nat.mul_comm]
    exact (Nat.two_pow_add_eq_or_of_lt l.isLt _).symm
  rw [joinBytes, BitVec.toNat_append, hor, Nat.shiftLeft_eq]
  omega

theorem toNat_lowByte (a : Address) : (lowByte a).toNat = a.toNat % 256 := by
  simp [lowByte, BitVec.extractLsb'_toNat]

theorem toNat_highByte (a : Address) : (highByte a).toNat = a.toNat / 256 := by
  have := a.isLt
  simp only [highByte, BitVec.extractLsb'_toNat, Nat.shiftRight_eq_div_pow]
  omega

/-- Joining the two bytes of a 16-bit operand gives it back. -/
@[simp] theorem joinBytes_high_low (a : Address) : joinBytes (highByte a) (lowByte a) = a := by
  apply BitVec.eq_of_toNat_eq
  rw [toNat_joinBytes, toNat_lowByte, toNat_highByte]
  omega

/-- The low byte of a joined pair. -/
@[simp] theorem lowByte_joinBytes (h l : Word) : lowByte (joinBytes h l) = l := by
  have := l.isLt
  apply BitVec.eq_of_toNat_eq
  rw [toNat_lowByte, toNat_joinBytes]
  omega

/-- The high byte of a joined pair. -/
@[simp] theorem highByte_joinBytes (h l : Word) : highByte (joinBytes h l) = h := by
  have := l.isLt
  apply BitVec.eq_of_toNat_eq
  rw [toNat_highByte, toNat_joinBytes]
  omega

namespace Machine

@[simp] theorem State.length_readBytes (s : State) (n : Nat) (a : Address) : (s.readBytes n a).length = n := by
  induction n generalizing a with
  | zero => rfl
  | succ n ih => simp [State.readBytes, ih]

/-- A shape filled with as many bytes as it awaits leaves none over. -/
theorem fill_of_length (shape : Shape) (bytes : List Word) (h : bytes.length = shape.operandBytes) :
    ∃ i, shape.fill bytes = some (i, []) := by
  match shape, bytes, h with
  | .implied i, [], _ => exact ⟨i, rfl⟩
  | .byteOperand f, [d], _ => exact ⟨f d, rfl⟩
  | .wordOperand f, [l, h], _ => exact ⟨f (joinBytes h l), rfl⟩

/-- The decoder's answer to a fetch: an instruction with nothing left over, or the unassigned opcode byte itself. -/
theorem decode_fetchBytes (s : State) :
    (∃ shape i, decodeOpcode (s.memRead s.pc) = some shape ∧
      shape.fill (s.readBytes shape.operandBytes (s.pc + 1)) = some (i, []) ∧ decode s.fetchBytes = .ok (i, [])) ∨
    (decodeOpcode (s.memRead s.pc) = none ∧ decode s.fetchBytes = .error (.unrecognizedOpcode (s.memRead s.pc))) := by
  cases h : decodeOpcode (s.memRead s.pc) with
  | none => exact .inr ⟨rfl, by simp [State.fetchBytes, decode, h]⟩
  | some shape =>
    obtain ⟨i, hi⟩ := fill_of_length shape (s.readBytes shape.operandBytes (s.pc + 1)) (by simp)
    exact .inl ⟨shape, i, rfl, hi, by simp only [State.fetchBytes, decode, operandCount, h, hi]⟩

end Machine

end Sys2Proof
end

