-- ==== Sys2Proof/Laws/State.lean ====
section
/-! SUPPORT. What each update of the state leaves in each of its fields: one lemma per field per update, so that no proof
unfolds a record update. -/

namespace Sys2Proof.Machine

variable (s : State)

@[simp] theorem State.setAc_pc (v : Word) : (s.setAc v).pc = s.pc := rfl
@[simp] theorem State.setAc_ac (v : Word) : (s.setAc v).ac = v := rfl
@[simp] theorem State.setAc_x (v : Word) : (s.setAc v).x = s.x := rfl
@[simp] theorem State.setAc_y (v : Word) : (s.setAc v).y = s.y := rfl
@[simp] theorem State.setAc_sp (v : Word) : (s.setAc v).sp = s.sp := rfl
@[simp] theorem State.setAc_sr (v : Word) : (s.setAc v).sr = s.sr := rfl
@[simp] theorem State.setAc_mem (v : Word) : (s.setAc v).mem = s.mem := rfl

@[simp] theorem State.setX_pc (v : Word) : (s.setX v).pc = s.pc := rfl
@[simp] theorem State.setX_ac (v : Word) : (s.setX v).ac = s.ac := rfl
@[simp] theorem State.setX_x (v : Word) : (s.setX v).x = v := rfl
@[simp] theorem State.setX_y (v : Word) : (s.setX v).y = s.y := rfl
@[simp] theorem State.setX_sp (v : Word) : (s.setX v).sp = s.sp := rfl
@[simp] theorem State.setX_sr (v : Word) : (s.setX v).sr = s.sr := rfl
@[simp] theorem State.setX_mem (v : Word) : (s.setX v).mem = s.mem := rfl

@[simp] theorem State.setY_pc (v : Word) : (s.setY v).pc = s.pc := rfl
@[simp] theorem State.setY_ac (v : Word) : (s.setY v).ac = s.ac := rfl
@[simp] theorem State.setY_x (v : Word) : (s.setY v).x = s.x := rfl
@[simp] theorem State.setY_y (v : Word) : (s.setY v).y = v := rfl
@[simp] theorem State.setY_sp (v : Word) : (s.setY v).sp = s.sp := rfl
@[simp] theorem State.setY_sr (v : Word) : (s.setY v).sr = s.sr := rfl
@[simp] theorem State.setY_mem (v : Word) : (s.setY v).mem = s.mem := rfl

@[simp] theorem State.setSp_pc (v : Word) : (s.setSp v).pc = s.pc := rfl
@[simp] theorem State.setSp_ac (v : Word) : (s.setSp v).ac = s.ac := rfl
@[simp] theorem State.setSp_x (v : Word) : (s.setSp v).x = s.x := rfl
@[simp] theorem State.setSp_y (v : Word) : (s.setSp v).y = s.y := rfl
@[simp] theorem State.setSp_sp (v : Word) : (s.setSp v).sp = v := rfl
@[simp] theorem State.setSp_sr (v : Word) : (s.setSp v).sr = s.sr := rfl
@[simp] theorem State.setSp_mem (v : Word) : (s.setSp v).mem = s.mem := rfl

@[simp] theorem State.setSr_pc (v : Word) : (s.setSr v).pc = s.pc := rfl
@[simp] theorem State.setSr_ac (v : Word) : (s.setSr v).ac = s.ac := rfl
@[simp] theorem State.setSr_x (v : Word) : (s.setSr v).x = s.x := rfl
@[simp] theorem State.setSr_y (v : Word) : (s.setSr v).y = s.y := rfl
@[simp] theorem State.setSr_sp (v : Word) : (s.setSr v).sp = s.sp := rfl
@[simp] theorem State.setSr_sr (v : Word) : (s.setSr v).sr = v := rfl
@[simp] theorem State.setSr_mem (v : Word) : (s.setSr v).mem = s.mem := rfl

@[simp] theorem State.memWrite_pc (a : Address) (v : Word) : (s.memWrite a v).pc = s.pc := rfl
@[simp] theorem State.memWrite_ac (a : Address) (v : Word) : (s.memWrite a v).ac = s.ac := rfl
@[simp] theorem State.memWrite_x (a : Address) (v : Word) : (s.memWrite a v).x = s.x := rfl
@[simp] theorem State.memWrite_y (a : Address) (v : Word) : (s.memWrite a v).y = s.y := rfl
@[simp] theorem State.memWrite_sp (a : Address) (v : Word) : (s.memWrite a v).sp = s.sp := rfl
@[simp] theorem State.memWrite_sr (a : Address) (v : Word) : (s.memWrite a v).sr = s.sr := rfl
@[simp] theorem State.memWrite_mem (a : Address) (v : Word) : (s.memWrite a v).mem = s.mem.write a.toNat v := rfl

@[simp] theorem State.advance_pc (w : Nat) : (s.advance w).pc = s.pc + BitVec.ofNat 16 w := rfl
@[simp] theorem State.advance_ac (w : Nat) : (s.advance w).ac = s.ac := rfl
@[simp] theorem State.advance_x (w : Nat) : (s.advance w).x = s.x := rfl
@[simp] theorem State.advance_y (w : Nat) : (s.advance w).y = s.y := rfl
@[simp] theorem State.advance_sp (w : Nat) : (s.advance w).sp = s.sp := rfl
@[simp] theorem State.advance_sr (w : Nat) : (s.advance w).sr = s.sr := rfl
@[simp] theorem State.advance_mem (w : Nat) : (s.advance w).mem = s.mem := rfl

@[simp] theorem State.assignFlag_pc (f : Flag) (c : Bool) : (s.assignFlag f c).pc = s.pc := rfl
@[simp] theorem State.assignFlag_ac (f : Flag) (c : Bool) : (s.assignFlag f c).ac = s.ac := rfl
@[simp] theorem State.assignFlag_x (f : Flag) (c : Bool) : (s.assignFlag f c).x = s.x := rfl
@[simp] theorem State.assignFlag_y (f : Flag) (c : Bool) : (s.assignFlag f c).y = s.y := rfl
@[simp] theorem State.assignFlag_sp (f : Flag) (c : Bool) : (s.assignFlag f c).sp = s.sp := rfl
@[simp] theorem State.assignFlag_sr (f : Flag) (c : Bool) : (s.assignFlag f c).sr = assignFlags (flagMask f) c s.sr := rfl
@[simp] theorem State.assignFlag_mem (f : Flag) (c : Bool) : (s.assignFlag f c).mem = s.mem := rfl

@[simp] theorem State.setFlag_pc (f : Flag) : (s.setFlag f).pc = s.pc := rfl
@[simp] theorem State.setFlag_ac (f : Flag) : (s.setFlag f).ac = s.ac := rfl
@[simp] theorem State.setFlag_x (f : Flag) : (s.setFlag f).x = s.x := rfl
@[simp] theorem State.setFlag_y (f : Flag) : (s.setFlag f).y = s.y := rfl
@[simp] theorem State.setFlag_sp (f : Flag) : (s.setFlag f).sp = s.sp := rfl
@[simp] theorem State.setFlag_sr (f : Flag) : (s.setFlag f).sr = setFlags (flagMask f) s.sr := rfl
@[simp] theorem State.setFlag_mem (f : Flag) : (s.setFlag f).mem = s.mem := rfl

@[simp] theorem State.clearFlag_pc (f : Flag) : (s.clearFlag f).pc = s.pc := rfl
@[simp] theorem State.clearFlag_ac (f : Flag) : (s.clearFlag f).ac = s.ac := rfl
@[simp] theorem State.clearFlag_x (f : Flag) : (s.clearFlag f).x = s.x := rfl
@[simp] theorem State.clearFlag_y (f : Flag) : (s.clearFlag f).y = s.y := rfl
@[simp] theorem State.clearFlag_sp (f : Flag) : (s.clearFlag f).sp = s.sp := rfl
@[simp] theorem State.clearFlag_sr (f : Flag) : (s.clearFlag f).sr = clearFlags (flagMask f) s.sr := rfl
@[simp] theorem State.clearFlag_mem (f : Flag) : (s.clearFlag f).mem = s.mem := rfl

@[simp] theorem State.setZN_pc (v : Word) : (s.setZN v).pc = s.pc := rfl
@[simp] theorem State.setZN_ac (v : Word) : (s.setZN v).ac = s.ac := rfl
@[simp] theorem State.setZN_x (v : Word) : (s.setZN v).x = s.x := rfl
@[simp] theorem State.setZN_y (v : Word) : (s.setZN v).y = s.y := rfl
@[simp] theorem State.setZN_sp (v : Word) : (s.setZN v).sp = s.sp := rfl
@[simp] theorem State.setZN_sr (v : Word) : (s.setZN v).sr = assignFlags 0x80 v.msb (assignFlags 0x02 (v == 0) s.sr) := rfl
@[simp] theorem State.setZN_mem (v : Word) : (s.setZN v).mem = s.mem := rfl

@[simp] theorem State.setAc_memRead (v : Word) (b : Address) : (s.setAc v).memRead b = s.memRead b := rfl
@[simp] theorem State.setX_memRead (v : Word) (b : Address) : (s.setX v).memRead b = s.memRead b := rfl
@[simp] theorem State.setY_memRead (v : Word) (b : Address) : (s.setY v).memRead b = s.memRead b := rfl
@[simp] theorem State.setSp_memRead (v : Word) (b : Address) : (s.setSp v).memRead b = s.memRead b := rfl
@[simp] theorem State.setSr_memRead (v : Word) (b : Address) : (s.setSr v).memRead b = s.memRead b := rfl
@[simp] theorem State.advance_memRead (w : Nat) (b : Address) : (s.advance w).memRead b = s.memRead b := rfl
@[simp] theorem State.assignFlag_memRead (f : Flag) (c : Bool) (b : Address) : (s.assignFlag f c).memRead b = s.memRead b := rfl
@[simp] theorem State.setFlag_memRead (f : Flag) (b : Address) : (s.setFlag f).memRead b = s.memRead b := rfl
@[simp] theorem State.clearFlag_memRead (f : Flag) (b : Address) : (s.clearFlag f).memRead b = s.memRead b := rfl
@[simp] theorem State.setZN_memRead (v : Word) (b : Address) : (s.setZN v).memRead b = s.memRead b := rfl

end Sys2Proof.Machine
end

