-- ==== Sys2Proof/Laws/Exec.lean ====
section
/-! SUPPORT. What running an instruction can do, said once: the 98 meanings are the 33 mnemonics' operations at the operand
and effective address of the form, then Advance; what each operation leaves in each field; and the two outcomes of a step. -/

namespace Sys2Proof.Machine

/-- The operation of a mnemonic on an operand byte `v` and an effective address `ea`, each used where the mnemonic uses it. -/
def State.perform (s : State) (v : Word) (ea : Address) : Mnemonic → State
  | .lda => s.lda v
  | .ldx => s.ldx v
  | .ldy => s.ldy v
  | .sta => s.sta ea
  | .stx => s.stx ea
  | .sty => s.sty ea
  | .tax => s.tax
  | .tay => s.tay
  | .txa => s.txa
  | .tya => s.tya
  | .tsx => s.tsx
  | .txs => s.txs
  | .inc => s.inc ea
  | .inx => s.inx
  | .iny => s.iny
  | .dex => s.dex
  | .dey => s.dey
  | .eor => s.eor v
  | .ora => s.ora v
  | .adc => s.adc v
  | .sbc => s.sbc v
  | .rol => s.rol ea
  | .ror => s.ror ea
  | .asl => s.asl ea
  | .lsr => s.lsr ea
  | .sec => s.setFlag .carry
  | .clc => s.clearFlag .carry
  | .sed => s.setFlag .decimal
  | .cld => s.clearFlag .decimal
  | .sei => s.setFlag .interrupt
  | .cli => s.clearFlag .interrupt
  | .clv => s.clearFlag .overflow
  | .nop => s

/-- The byte a reading form operates on: its operand for Immediate, else the byte at its effective address. -/
def State.operandValue (s : State) (i : Instr) : Word :=
  match i.mode, i.form.operand with
  | .immediate, .byte d => d
  | _, _ => s.memRead ((s.effectiveAddress i).getD 0)

/-- Every instruction completes: its mnemonic's operation at its operand and address, then Advance by its width. -/
theorem exec_eq_perform (i : Instr) (s : State) :
    exec i s = .next ((s.perform (s.operandValue i) ((s.effectiveAddress i).getD 0) i.mnemonic).advance i.width) := by
  cases i <;> rfl

/-- The spec's `Execute(mnemonic, ea)` is the operation on the byte at `ea`. -/
theorem State.execute_eq_perform (s : State) (ea : Address) (m : Mnemonic) :
    s.execute ea m = s.perform (s.memRead ea) ea m := by
  cases m <;> rfl

variable (s : State) (v : Word) (ea : Address) (m : Mnemonic)

/-- No operation writes `pc`. -/
@[simp] theorem State.perform_pc : (s.perform v ea m).pc = s.pc := by cases m <;> rfl

/-- What an operation leaves in `AC`. -/
theorem State.perform_ac : (s.perform v ea m).ac =
    match m with
    | .lda => v
    | .txa => s.x
    | .tya => s.y
    | .eor => s.ac ^^^ v
    | .ora => s.ac ||| v
    | .adc => sumResult s.ac v (s.flag .carry)
    | .sbc => sumResult s.ac (onesComplement v) (s.flag .carry)
    | _ => s.ac := by cases m <;> rfl

/-- What an operation leaves in `X`. -/
theorem State.perform_x : (s.perform v ea m).x =
    match m with
    | .ldx => v
    | .tax => s.ac
    | .tsx => s.sp
    | .inx => s.x + 1
    | .dex => s.x - 1
    | _ => s.x := by cases m <;> rfl

/-- What an operation leaves in `Y`. -/
theorem State.perform_y : (s.perform v ea m).y =
    match m with
    | .ldy => v
    | .tay => s.ac
    | .iny => s.y + 1
    | .dey => s.y - 1
    | _ => s.y := by cases m <;> rfl

/-- What an operation leaves in `SP`. -/
theorem State.perform_sp : (s.perform v ea m).sp =
    match m with
    | .txs => s.x
    | _ => s.sp := by cases m <;> rfl

/-- What an operation leaves in memory: the byte its rule stores, at its effective address, or nothing changed. -/
theorem State.perform_mem : (s.perform v ea m).mem =
    match s.storedByte ea m with
    | some b => s.mem.write ea.toNat b
    | none => s.mem := by cases m <;> rfl

/-- The bytes an instruction stores are the ones of R37's phase 5: a mnemonic stores a byte exactly when it writes data. -/
theorem State.storedByte_isSome : (s.storedByte ea m).isSome = writesData m := by cases m <;> rfl

/-- A mnemonic that writes data has an effective address in every form of it. -/
theorem State.effectiveAddress_of_writesData {i : Instr} (h : writesData i.mnemonic = true) :
    s.effectiveAddress i = some ((s.effectiveAddress i).getD 0) := by
  cases i <;> first | rfl | exact absurd h (by decide)

/-- An instruction leaves memory as it was, or writes one byte, the one its rule gives, at its effective address. -/
theorem exec_mem (i : Instr) : ∃ t, exec i s = .next t ∧
    ((s.storeAddress i = none ∧ t.mem = s.mem) ∨
      ∃ a b, s.storeAddress i = some a ∧ s.storedByte a i.mnemonic = some b ∧ t.mem = s.mem.write a.toNat b) := by
  cases i <;> first
    | exact ⟨_, rfl, .inl ⟨rfl, rfl⟩⟩
    | exact ⟨_, rfl, .inr ⟨_, _, rfl, rfl, rfl⟩⟩

/-- A step runs the decoded instruction with nothing left over, or raises on an unassigned opcode byte. -/
theorem step_cases :
    (∃ i, decode s.fetchBytes = .ok (i, []) ∧ step s = exec i s) ∨
    (decodeOpcode (s.memRead s.pc) = none ∧ step s = .fault (.unrecognizedOpcode s.pc (s.memRead s.pc))) := by
  rcases decode_fetchBytes s with ⟨shape, i, -, -, h⟩ | ⟨hn, h⟩
  · exact .inl ⟨i, h, by simp only [step, h]⟩
  · exact .inr ⟨hn, by simp only [step, h, State.raiseUnrecognizedOpcode]⟩

/-- A step that answers a next state ran the decoded instruction: what an invariant proof splits on. -/
theorem step_next {t : State} (h : step s = .next t) : ∃ i, decode s.fetchBytes = .ok (i, []) ∧ exec i s = .next t := by
  rcases step_cases s with ⟨i, hd, hs⟩ | ⟨-, hs⟩
  · exact ⟨i, hd, hs ▸ h⟩
  · rw [hs] at h
    cases h

end Sys2Proof.Machine
end

