-- ==== Sys2Proof/Laws/Flags.lean ====
section
/-! SUPPORT. The named flags of `SR`: a flag is a bit, and assigning one flag changes that flag and no other. -/

namespace Sys2Proof.Machine

/-- The position of a flag in `SR` (10_state R16). -/
def flagPosition : Flag → Nat
  | .negative => 7
  | .overflow => 6
  | .ignored => 5
  | .brk => 4
  | .decimal => 3
  | .interrupt => 2
  | .zero => 1
  | .carry => 0

/-- Reading a flag reads its bit. -/
theorem State.flag_eq (s : State) (f : Flag) : s.flag f = s.sr.getLsbD (flagPosition f) := by
  have key : ∀ sr : Word, ∀ g ∈ [Flag.negative, .overflow, .ignored, .brk, .decimal, .interrupt, .zero, .carry],
      ((sr &&& flagMask g) != 0) = sr.getLsbD (flagPosition g) := by decide +kernel
  exact key s.sr f (by cases f <;> decide)

/-- Assigning a flag gives it the condition and leaves every other flag as it was (10_state R26). -/
theorem State.flag_assignFlag (s : State) (f g : Flag) (c : Bool) :
    (s.assignFlag f c).flag g = if g = f then c else s.flag g := by
  have key : ∀ sr : Word, ∀ f ∈ [Flag.negative, .overflow, .ignored, .brk, .decimal, .interrupt, .zero, .carry],
      ∀ g ∈ [Flag.negative, .overflow, .ignored, .brk, .decimal, .interrupt, .zero, .carry], ∀ c : Bool,
      ((assignFlags (flagMask f) c sr &&& flagMask g) != 0) = if g = f then c else ((sr &&& flagMask g) != 0) := by
    decide +kernel
  exact key s.sr f (by cases f <;> decide) g (by cases g <;> decide) c

end Sys2Proof.Machine
end

