-- ==== Sys2Proof/Laws/Memory.lean ====
section
/-! SUPPORT. The laws of memory: a write reads back, leaves every other address alone, and keeps the canonical form; the
memory of an image reads the image and is canonical. -/

namespace Sys2Proof.Machine

theorem Memory.read_of_lt {lo : Nat} {m : Memory} (h : Memory.wfFrom lo m = true) {a : Nat} (ha : a < lo) :
    m.read a = Config.unlistedByte := by
  induction m generalizing lo with
  | nil => rfl
  | cons c rest ih =>
    obtain ⟨k, v⟩ := c
    simp only [Memory.wfFrom, Bool.and_eq_true, decide_eq_true_eq] at h
    have hk : k ≠ a := by omega
    simp only [Memory.read, if_neg hk]
    exact ih h.2 (by omega)

theorem Memory.wfFrom_mono {lo lo' : Nat} {m : Memory} (h : Memory.wfFrom lo m = true) (hlo : lo' ≤ lo) :
    Memory.wfFrom lo' m = true := by
  cases m with
  | nil => rfl
  | cons c rest =>
    obtain ⟨k, v⟩ := c
    simp only [Memory.wfFrom, Bool.and_eq_true, decide_eq_true_eq] at h ⊢
    exact ⟨⟨⟨by omega, h.1.1.2⟩, h.1.2⟩, h.2⟩

theorem Memory.wfFrom_write {lo : Nat} {m : Memory} (h : Memory.wfFrom lo m = true) {a : Nat} (v : Word) (hlo : lo ≤ a)
    (ha : a < Config.memBytes) : Memory.wfFrom lo (m.write a v) = true := by
  induction m generalizing lo with
  | nil =>
    simp only [Memory.write]
    split
    · rfl
    · simp_all [Memory.wfFrom]
  | cons c rest ih =>
    obtain ⟨k, w⟩ := c
    have h' := h
    simp only [Memory.wfFrom, Bool.and_eq_true, decide_eq_true_eq] at h
    simp only [Memory.write]
    split
    · split
      · exact h'
      · simp only [Memory.wfFrom, Bool.and_eq_true, decide_eq_true_eq]
        exact ⟨⟨⟨hlo, ha⟩, ‹_›⟩, ⟨⟨by omega, h.1.1.2⟩, h.1.2⟩, h.2⟩
    · split
      · subst_vars
        split
        · exact Memory.wfFrom_mono h.2 (by omega)
        · simp only [Memory.wfFrom, Bool.and_eq_true, decide_eq_true_eq]
          exact ⟨⟨⟨hlo, ha⟩, ‹_›⟩, h.2⟩
      · simp only [Memory.wfFrom, Bool.and_eq_true, decide_eq_true_eq]
        exact ⟨h.1, ih h.2 (by omega)⟩

/-- Every write inside the address space keeps the canonical form. -/
theorem Memory.wf_write {m : Memory} (h : m.wf = true) {a : Nat} (v : Word) (ha : a < Config.memBytes) :
    (m.write a v).wf = true := Memory.wfFrom_write h v (Nat.zero_le a) ha

theorem Memory.read_write_from {lo : Nat} {m : Memory} (h : Memory.wfFrom lo m = true) (a b : Nat) (v : Word) :
    (m.write a v).read b = if b = a then v else m.read b := by
  induction m generalizing lo with
  | nil =>
    simp only [Memory.write]
    split
    · simp_all [Memory.read]
    · simp [Memory.read, eq_comm]
  | cons c rest ih =>
    obtain ⟨k, w⟩ := c
    have h' := h
    simp only [Memory.wfFrom, Bool.and_eq_true, decide_eq_true_eq] at h
    simp only [Memory.write]
    split
    · split
      · split
        · subst_vars
          exact Memory.read_of_lt (lo := k)
            (by simp only [Memory.wfFrom, Bool.and_eq_true, decide_eq_true_eq]
                exact ⟨⟨⟨Nat.le_refl k, h.1.1.2⟩, h.1.2⟩, h.2⟩) ‹_›
        · rfl
      · simp only [Memory.read, eq_comm]
    · split
      · subst_vars
        split
        · split
          · subst_vars
            exact Memory.read_of_lt h.2 (Nat.lt_succ_self _)
          · simp only [Memory.read, if_neg (Ne.symm ‹¬b = k›)]
        · by_cases hb : k = b
          · simp [Memory.read, hb]
          · simp [Memory.read, hb, Ne.symm hb]
      · by_cases hb : k = b
        · subst hb
          have : ¬ k = a := by omega
          simp [Memory.read, this]
        · simp only [Memory.read, if_neg hb]
          exact ih h.2

/-- In canonical memory a write reads back, and leaves every other address alone. -/
theorem Memory.read_write {m : Memory} (h : m.wf = true) (a b : Nat) (v : Word) :
    (m.write a v).read b = if b = a then v else m.read b := Memory.read_write_from h a b v

/-- The same law at the addresses of the core. -/
theorem State.memRead_memWrite {s : State} (h : s.mem.wf = true) (a b : Address) (v : Word) :
    (s.memWrite a v).memRead b = if b = a then v else s.memRead b := by
  simp only [State.memRead, State.memWrite_mem, Memory.read_write h, BitVec.toNat_inj]

/-- A write at an address of the core keeps the canonical form. -/
theorem State.memWrite_wf {s : State} (h : s.mem.wf = true) (a : Address) (v : Word) : (s.memWrite a v).mem.wf = true :=
  Memory.wf_write h v a.isLt

theorem Memory.ofBytesFrom_wf (lo : Nat) (bs : List Word) (h : lo + bs.length ≤ Config.memBytes) :
    Memory.wfFrom lo (Memory.ofBytesFrom lo bs) = true := by
  induction bs generalizing lo with
  | nil => rfl
  | cons b bs ih =>
    simp only [List.length_cons] at h
    have hrest := ih (lo + 1) (by omega)
    simp only [Memory.ofBytesFrom]
    split
    · exact Memory.wfFrom_mono hrest (by omega)
    · simp only [Memory.wfFrom, Bool.and_eq_true, decide_eq_true_eq]
      exact ⟨⟨⟨Nat.le_refl _, by omega⟩, ‹_›⟩, hrest⟩

/-- The memory of an image is canonical. -/
theorem Memory.ofImage_wf (image : Vector Word Config.memBytes) : (Memory.ofImage image).wf = true :=
  Memory.ofBytesFrom_wf 0 _ (by simp)

theorem Memory.ofBytesFrom_read_lt (lo : Nat) (bs : List Word) {a : Nat} (ha : a < lo) :
    (Memory.ofBytesFrom lo bs).read a = Config.unlistedByte := by
  induction bs generalizing lo with
  | nil => rfl
  | cons b bs ih =>
    simp only [Memory.ofBytesFrom]
    split
    · exact ih (lo + 1) (by omega)
    · have : ¬ lo = a := by omega
      simp only [Memory.read, if_neg this]
      exact ih (lo + 1) (by omega)

theorem Memory.ofBytesFrom_read (lo : Nat) (bs : List Word) (k : Nat) :
    (Memory.ofBytesFrom lo bs).read (lo + k) = bs.getD k Config.unlistedByte := by
  induction bs generalizing lo k with
  | nil => rfl
  | cons b bs ih =>
    cases k with
    | zero =>
      simp only [Memory.ofBytesFrom]
      split
      · simp [Memory.ofBytesFrom_read_lt, *]
      · simp [Memory.read]
    | succ k =>
      have hk : lo + (k + 1) = lo + 1 + k := by omega
      simp only [Memory.ofBytesFrom]
      split
      · rw [hk, ih]; rfl
      · have : ¬ lo = lo + (k + 1) := by omega
        simp only [Memory.read, if_neg this]
        rw [hk, ih]; rfl

/-- The memory of an image reads the image at every address. -/
theorem Memory.ofImage_read (image : Vector Word Config.memBytes) {a : Nat} (ha : a < Config.memBytes) :
    (Memory.ofImage image).read a = image[a] := by
  have h := Memory.ofBytesFrom_read 0 image.toList a
  rw [Nat.zero_add] at h
  rw [Memory.ofImage, h, List.getD_eq_getElem?_getD, List.getElem?_eq_getElem (by simpa using ha)]
  simp

/-- An image of bytes that unlisted addresses read as lists nothing. -/
theorem Memory.ofBytesFrom_replicate (lo n : Nat) :
    Memory.ofBytesFrom lo (List.replicate n Config.unlistedByte) = [] := by
  induction n generalizing lo with
  | zero => rfl
  | succ n ih => simp [List.replicate_succ, Memory.ofBytesFrom, ih]

/-- The memory of TYPICAL_INIT lists nothing. -/
theorem Memory.ofImage_typical (startPc : Address) : Memory.ofImage (Config.typicalInit startPc).mem = [] := by
  have h : (Config.typicalInit startPc).mem.toList = List.replicate Config.memBytes Config.unlistedByte :=
    Vector.toList_replicate
  rw [Memory.ofImage, h, Memory.ofBytesFrom_replicate]

end Sys2Proof.Machine
end

