-- ==== Sys2Proof/Laws/PerInstr.lean ====
section
/-! SUPPORT. What holds of every instruction as syntax: it is well-formed, and its encoding is an opcode byte followed by the
operand bytes of its mode. One lemma per constructor of `Instr`. -/

namespace Sys2Proof.Laws.InstrWellFormed

/-- The instruction's form exists in the tables, its encoding has the width of its mode, and the opcode byte that leads the
encoding awaits as many operand bytes as follow it. -/
def Statement (i : Instr) : Prop :=
  i.wellFormed = true ∧ (encode i).length = i.width ∧ operandCount ((encode i).headD 0) = i.mode.operandBytes

theorem ldaIzx (d : Word) : Statement (.ldaIzx d) := ⟨rfl, rfl, rfl⟩
theorem ldaIzy (d : Word) : Statement (.ldaIzy d) := ⟨rfl, rfl, rfl⟩
theorem ldaZp (d : Word) : Statement (.ldaZp d) := ⟨rfl, rfl, rfl⟩
theorem ldaZpx (d : Word) : Statement (.ldaZpx d) := ⟨rfl, rfl, rfl⟩
theorem ldaImm (d : Word) : Statement (.ldaImm d) := ⟨rfl, rfl, rfl⟩
theorem ldaAby (a : Address) : Statement (.ldaAby a) := ⟨rfl, rfl, rfl⟩
theorem ldaAbs (a : Address) : Statement (.ldaAbs a) := ⟨rfl, rfl, rfl⟩
theorem ldaAbx (a : Address) : Statement (.ldaAbx a) := ⟨rfl, rfl, rfl⟩
theorem ldxZp (d : Word) : Statement (.ldxZp d) := ⟨rfl, rfl, rfl⟩
theorem ldxImm (d : Word) : Statement (.ldxImm d) := ⟨rfl, rfl, rfl⟩
theorem ldxAbs (a : Address) : Statement (.ldxAbs a) := ⟨rfl, rfl, rfl⟩
theorem ldyZp (d : Word) : Statement (.ldyZp d) := ⟨rfl, rfl, rfl⟩
theorem ldyZpx (d : Word) : Statement (.ldyZpx d) := ⟨rfl, rfl, rfl⟩
theorem ldyImm (d : Word) : Statement (.ldyImm d) := ⟨rfl, rfl, rfl⟩
theorem ldyAbs (a : Address) : Statement (.ldyAbs a) := ⟨rfl, rfl, rfl⟩
theorem ldyAbx (a : Address) : Statement (.ldyAbx a) := ⟨rfl, rfl, rfl⟩
theorem staIzx (d : Word) : Statement (.staIzx d) := ⟨rfl, rfl, rfl⟩
theorem staIzy (d : Word) : Statement (.staIzy d) := ⟨rfl, rfl, rfl⟩
theorem staZp (d : Word) : Statement (.staZp d) := ⟨rfl, rfl, rfl⟩
theorem staZpx (d : Word) : Statement (.staZpx d) := ⟨rfl, rfl, rfl⟩
theorem staAby (a : Address) : Statement (.staAby a) := ⟨rfl, rfl, rfl⟩
theorem staAbs (a : Address) : Statement (.staAbs a) := ⟨rfl, rfl, rfl⟩
theorem staAbx (a : Address) : Statement (.staAbx a) := ⟨rfl, rfl, rfl⟩
theorem stxZp (d : Word) : Statement (.stxZp d) := ⟨rfl, rfl, rfl⟩
theorem stxAbs (a : Address) : Statement (.stxAbs a) := ⟨rfl, rfl, rfl⟩
theorem styZp (d : Word) : Statement (.styZp d) := ⟨rfl, rfl, rfl⟩
theorem styZpx (d : Word) : Statement (.styZpx d) := ⟨rfl, rfl, rfl⟩
theorem styAbs (a : Address) : Statement (.styAbs a) := ⟨rfl, rfl, rfl⟩
theorem tax : Statement (.tax) := ⟨rfl, rfl, rfl⟩
theorem tay : Statement (.tay) := ⟨rfl, rfl, rfl⟩
theorem txa : Statement (.txa) := ⟨rfl, rfl, rfl⟩
theorem tya : Statement (.tya) := ⟨rfl, rfl, rfl⟩
theorem tsx : Statement (.tsx) := ⟨rfl, rfl, rfl⟩
theorem txs : Statement (.txs) := ⟨rfl, rfl, rfl⟩
theorem incZp (d : Word) : Statement (.incZp d) := ⟨rfl, rfl, rfl⟩
theorem incZpx (d : Word) : Statement (.incZpx d) := ⟨rfl, rfl, rfl⟩
theorem incAbs (a : Address) : Statement (.incAbs a) := ⟨rfl, rfl, rfl⟩
theorem incAbx (a : Address) : Statement (.incAbx a) := ⟨rfl, rfl, rfl⟩
theorem inx : Statement (.inx) := ⟨rfl, rfl, rfl⟩
theorem iny : Statement (.iny) := ⟨rfl, rfl, rfl⟩
theorem dex : Statement (.dex) := ⟨rfl, rfl, rfl⟩
theorem dey : Statement (.dey) := ⟨rfl, rfl, rfl⟩
theorem eorIzx (d : Word) : Statement (.eorIzx d) := ⟨rfl, rfl, rfl⟩
theorem eorIzy (d : Word) : Statement (.eorIzy d) := ⟨rfl, rfl, rfl⟩
theorem eorZp (d : Word) : Statement (.eorZp d) := ⟨rfl, rfl, rfl⟩
theorem eorZpx (d : Word) : Statement (.eorZpx d) := ⟨rfl, rfl, rfl⟩
theorem eorImm (d : Word) : Statement (.eorImm d) := ⟨rfl, rfl, rfl⟩
theorem eorAby (a : Address) : Statement (.eorAby a) := ⟨rfl, rfl, rfl⟩
theorem eorAbs (a : Address) : Statement (.eorAbs a) := ⟨rfl, rfl, rfl⟩
theorem eorAbx (a : Address) : Statement (.eorAbx a) := ⟨rfl, rfl, rfl⟩
theorem oraIzx (d : Word) : Statement (.oraIzx d) := ⟨rfl, rfl, rfl⟩
theorem oraIzy (d : Word) : Statement (.oraIzy d) := ⟨rfl, rfl, rfl⟩
theorem oraZp (d : Word) : Statement (.oraZp d) := ⟨rfl, rfl, rfl⟩
theorem oraZpx (d : Word) : Statement (.oraZpx d) := ⟨rfl, rfl, rfl⟩
theorem oraImm (d : Word) : Statement (.oraImm d) := ⟨rfl, rfl, rfl⟩
theorem oraAby (a : Address) : Statement (.oraAby a) := ⟨rfl, rfl, rfl⟩
theorem oraAbs (a : Address) : Statement (.oraAbs a) := ⟨rfl, rfl, rfl⟩
theorem oraAbx (a : Address) : Statement (.oraAbx a) := ⟨rfl, rfl, rfl⟩
theorem adcIzx (d : Word) : Statement (.adcIzx d) := ⟨rfl, rfl, rfl⟩
theorem adcIzy (d : Word) : Statement (.adcIzy d) := ⟨rfl, rfl, rfl⟩
theorem adcZp (d : Word) : Statement (.adcZp d) := ⟨rfl, rfl, rfl⟩
theorem adcZpx (d : Word) : Statement (.adcZpx d) := ⟨rfl, rfl, rfl⟩
theorem adcImm (d : Word) : Statement (.adcImm d) := ⟨rfl, rfl, rfl⟩
theorem adcAby (a : Address) : Statement (.adcAby a) := ⟨rfl, rfl, rfl⟩
theorem adcAbs (a : Address) : Statement (.adcAbs a) := ⟨rfl, rfl, rfl⟩
theorem adcAbx (a : Address) : Statement (.adcAbx a) := ⟨rfl, rfl, rfl⟩
theorem sbcIzx (d : Word) : Statement (.sbcIzx d) := ⟨rfl, rfl, rfl⟩
theorem sbcIzy (d : Word) : Statement (.sbcIzy d) := ⟨rfl, rfl, rfl⟩
theorem sbcZp (d : Word) : Statement (.sbcZp d) := ⟨rfl, rfl, rfl⟩
theorem sbcZpx (d : Word) : Statement (.sbcZpx d) := ⟨rfl, rfl, rfl⟩
theorem sbcImm (d : Word) : Statement (.sbcImm d) := ⟨rfl, rfl, rfl⟩
theorem sbcAby (a : Address) : Statement (.sbcAby a) := ⟨rfl, rfl, rfl⟩
theorem sbcAbs (a : Address) : Statement (.sbcAbs a) := ⟨rfl, rfl, rfl⟩
theorem sbcAbx (a : Address) : Statement (.sbcAbx a) := ⟨rfl, rfl, rfl⟩
theorem rolZp (d : Word) : Statement (.rolZp d) := ⟨rfl, rfl, rfl⟩
theorem rolZpx (d : Word) : Statement (.rolZpx d) := ⟨rfl, rfl, rfl⟩
theorem rolAbs (a : Address) : Statement (.rolAbs a) := ⟨rfl, rfl, rfl⟩
theorem rolAbx (a : Address) : Statement (.rolAbx a) := ⟨rfl, rfl, rfl⟩
theorem rorZp (d : Word) : Statement (.rorZp d) := ⟨rfl, rfl, rfl⟩
theorem rorZpx (d : Word) : Statement (.rorZpx d) := ⟨rfl, rfl, rfl⟩
theorem rorAbs (a : Address) : Statement (.rorAbs a) := ⟨rfl, rfl, rfl⟩
theorem rorAbx (a : Address) : Statement (.rorAbx a) := ⟨rfl, rfl, rfl⟩
theorem aslZp (d : Word) : Statement (.aslZp d) := ⟨rfl, rfl, rfl⟩
theorem aslZpx (d : Word) : Statement (.aslZpx d) := ⟨rfl, rfl, rfl⟩
theorem aslAbs (a : Address) : Statement (.aslAbs a) := ⟨rfl, rfl, rfl⟩
theorem aslAbx (a : Address) : Statement (.aslAbx a) := ⟨rfl, rfl, rfl⟩
theorem lsrZp (d : Word) : Statement (.lsrZp d) := ⟨rfl, rfl, rfl⟩
theorem lsrZpx (d : Word) : Statement (.lsrZpx d) := ⟨rfl, rfl, rfl⟩
theorem lsrAbs (a : Address) : Statement (.lsrAbs a) := ⟨rfl, rfl, rfl⟩
theorem lsrAbx (a : Address) : Statement (.lsrAbx a) := ⟨rfl, rfl, rfl⟩
theorem sec : Statement (.sec) := ⟨rfl, rfl, rfl⟩
theorem clc : Statement (.clc) := ⟨rfl, rfl, rfl⟩
theorem sed : Statement (.sed) := ⟨rfl, rfl, rfl⟩
theorem cld : Statement (.cld) := ⟨rfl, rfl, rfl⟩
theorem sei : Statement (.sei) := ⟨rfl, rfl, rfl⟩
theorem cli : Statement (.cli) := ⟨rfl, rfl, rfl⟩
theorem clv : Statement (.clv) := ⟨rfl, rfl, rfl⟩
theorem nop : Statement (.nop) := ⟨rfl, rfl, rfl⟩

/-- Every instruction is well-formed, by its constructor. -/
theorem all (i : Instr) : Statement i := by
  cases i with
  | ldaIzx d => exact ldaIzx d
  | ldaIzy d => exact ldaIzy d
  | ldaZp d => exact ldaZp d
  | ldaZpx d => exact ldaZpx d
  | ldaImm d => exact ldaImm d
  | ldaAby a => exact ldaAby a
  | ldaAbs a => exact ldaAbs a
  | ldaAbx a => exact ldaAbx a
  | ldxZp d => exact ldxZp d
  | ldxImm d => exact ldxImm d
  | ldxAbs a => exact ldxAbs a
  | ldyZp d => exact ldyZp d
  | ldyZpx d => exact ldyZpx d
  | ldyImm d => exact ldyImm d
  | ldyAbs a => exact ldyAbs a
  | ldyAbx a => exact ldyAbx a
  | staIzx d => exact staIzx d
  | staIzy d => exact staIzy d
  | staZp d => exact staZp d
  | staZpx d => exact staZpx d
  | staAby a => exact staAby a
  | staAbs a => exact staAbs a
  | staAbx a => exact staAbx a
  | stxZp d => exact stxZp d
  | stxAbs a => exact stxAbs a
  | styZp d => exact styZp d
  | styZpx d => exact styZpx d
  | styAbs a => exact styAbs a
  | tax => exact tax
  | tay => exact tay
  | txa => exact txa
  | tya => exact tya
  | tsx => exact tsx
  | txs => exact txs
  | incZp d => exact incZp d
  | incZpx d => exact incZpx d
  | incAbs a => exact incAbs a
  | incAbx a => exact incAbx a
  | inx => exact inx
  | iny => exact iny
  | dex => exact dex
  | dey => exact dey
  | eorIzx d => exact eorIzx d
  | eorIzy d => exact eorIzy d
  | eorZp d => exact eorZp d
  | eorZpx d => exact eorZpx d
  | eorImm d => exact eorImm d
  | eorAby a => exact eorAby a
  | eorAbs a => exact eorAbs a
  | eorAbx a => exact eorAbx a
  | oraIzx d => exact oraIzx d
  | oraIzy d => exact oraIzy d
  | oraZp d => exact oraZp d
  | oraZpx d => exact oraZpx d
  | oraImm d => exact oraImm d
  | oraAby a => exact oraAby a
  | oraAbs a => exact oraAbs a
  | oraAbx a => exact oraAbx a
  | adcIzx d => exact adcIzx d
  | adcIzy d => exact adcIzy d
  | adcZp d => exact adcZp d
  | adcZpx d => exact adcZpx d
  | adcImm d => exact adcImm d
  | adcAby a => exact adcAby a
  | adcAbs a => exact adcAbs a
  | adcAbx a => exact adcAbx a
  | sbcIzx d => exact sbcIzx d
  | sbcIzy d => exact sbcIzy d
  | sbcZp d => exact sbcZp d
  | sbcZpx d => exact sbcZpx d
  | sbcImm d => exact sbcImm d
  | sbcAby a => exact sbcAby a
  | sbcAbs a => exact sbcAbs a
  | sbcAbx a => exact sbcAbx a
  | rolZp d => exact rolZp d
  | rolZpx d => exact rolZpx d
  | rolAbs a => exact rolAbs a
  | rolAbx a => exact rolAbx a
  | rorZp d => exact rorZp d
  | rorZpx d => exact rorZpx d
  | rorAbs a => exact rorAbs a
  | rorAbx a => exact rorAbx a
  | aslZp d => exact aslZp d
  | aslZpx d => exact aslZpx d
  | aslAbs a => exact aslAbs a
  | aslAbx a => exact aslAbx a
  | lsrZp d => exact lsrZp d
  | lsrZpx d => exact lsrZpx d
  | lsrAbs a => exact lsrAbs a
  | lsrAbx a => exact lsrAbx a
  | sec => exact sec
  | clc => exact clc
  | sed => exact sed
  | cld => exact cld
  | sei => exact sei
  | cli => exact cli
  | clv => exact clv
  | nop => exact nop

end Sys2Proof.Laws.InstrWellFormed
end

