-- ==== Sys2Proof/Tests/Slice0.lean ====
section
/-! SUPPORT. The model's own tests. Expected values are the spec's: the opcode map by mnemonic (30_encoding R57) for decoding,
the rows V<n> of 95_test_vectors for single steps. Then one witness for each obligation that has hypotheses: a concrete
state and operands that meet them all. -/

namespace Sys2Proof.Machine.Tests

/-- A state at `pc` whose memory holds the given cells, every other field as at reset. -/
def startAt (pc : Address) (cells : Memory) : State := { State.reset with pc := pc, mem := cells }

/-- The state after one step; none where the step stops. -/
def after (s : State) : Option State :=
  match step s with
  | .next t => some t
  | .fault _ => none
  | .refused _ => none

/-- The fault of one step; none where it answers a state. -/
def faultOf (s : State) : Option Fault :=
  match step s with
  | .next _ => none
  | .fault f => some f
  | .refused _ => none

/-- Each list of bytes is exactly the instruction beside it. -/
def decodesAll (rows : List (List Word × Instr)) : Bool :=
  rows.all fun row =>
    match decode row.1 with
    | .ok (i, []) => i == row.2
    | _ => false

/-! Forms (30 R51, R57, R62): each check refuses a term of its own. -/

/-- `sta` has no Immediate form: "`-` means the mnemonic has no opcode with that mode" (30 R57). -/
theorem test_wellFormed_refuses_sta_immediate : Form.wellFormed ⟨.sta, .immediate, .byte 0x01⟩ = false := by decide

/-- `ldx` has no indexed form (41 R91). -/
theorem test_wellFormed_refuses_ldx_indexed : Form.wellFormed ⟨.ldx, .zeroPageIndexedX, .byte 0x10⟩ = false := by decide

/-- The ZeroPage format has one operand byte, not two (30 R51). -/
theorem test_wellFormed_refuses_word_operand : Form.wellFormed ⟨.lda, .zeroPage, .word 0x0010⟩ = false := by decide

/-- The Implied format has no operand (30 R51). -/
theorem test_wellFormed_refuses_nop_operand : Form.wellFormed ⟨.nop, .implied, .byte 0x00⟩ = false := by decide

/-- `lda $0010` is a form of the table (30 R62). -/
theorem test_wellFormed_accepts_lda_absolute : Form.wellFormed ⟨.lda, .absolute, .word 0x0010⟩ = true := by decide

/-- "`lda $0010` assembles to `AD 10 00`, not `A5 10`" (30 R62). -/
theorem test_assemble_lda_absolute : Form.assemble ⟨.lda, .absolute, .word 0x0010⟩ = some [0xAD, 0x10, 0x00] := by decide

/-- A combination with `-` "does not assemble" (30 R62). -/
theorem test_assemble_refuses_sta_immediate : Form.assemble ⟨.sta, .immediate, .byte 0x01⟩ = none := by decide

/-- The operand syntax of IndexedIndirectX, as V1 writes it (30 R62). -/
theorem test_text_lda_izx : Form.text ⟨.lda, .indexedIndirectX, .byte 0x20⟩ =
    ['l', 'd', 'a', ' ', '(', '$', '2', '0', ',', 'x', ')'] := by decide

/-! Decoding: every row of the map by mnemonic (30 R57), and what is no instruction. -/

/-- The words of `ora` (30 R57, R51). -/
theorem test_decode_ora :
    decodesAll [([0x01, 0xC3], .oraIzx 0xC3),
      ([0x11, 0xC3], .oraIzy 0xC3),
      ([0x05, 0xC3], .oraZp 0xC3),
      ([0x15, 0xC3], .oraZpx 0xC3),
      ([0x09, 0xC3], .oraImm 0xC3),
      ([0x19, 0x34, 0x12], .oraAby 0x1234),
      ([0x0D, 0x34, 0x12], .oraAbs 0x1234),
      ([0x1D, 0x34, 0x12], .oraAbx 0x1234)] = true := by decide

/-- The words of `eor` (30 R57, R51). -/
theorem test_decode_eor :
    decodesAll [([0x41, 0xC3], .eorIzx 0xC3),
      ([0x51, 0xC3], .eorIzy 0xC3),
      ([0x45, 0xC3], .eorZp 0xC3),
      ([0x55, 0xC3], .eorZpx 0xC3),
      ([0x49, 0xC3], .eorImm 0xC3),
      ([0x59, 0x34, 0x12], .eorAby 0x1234),
      ([0x4D, 0x34, 0x12], .eorAbs 0x1234),
      ([0x5D, 0x34, 0x12], .eorAbx 0x1234)] = true := by decide

/-- The words of `adc` (30 R57, R51). -/
theorem test_decode_adc :
    decodesAll [([0x61, 0xC3], .adcIzx 0xC3),
      ([0x71, 0xC3], .adcIzy 0xC3),
      ([0x65, 0xC3], .adcZp 0xC3),
      ([0x75, 0xC3], .adcZpx 0xC3),
      ([0x69, 0xC3], .adcImm 0xC3),
      ([0x79, 0x34, 0x12], .adcAby 0x1234),
      ([0x6D, 0x34, 0x12], .adcAbs 0x1234),
      ([0x7D, 0x34, 0x12], .adcAbx 0x1234)] = true := by decide

/-- The words of `sta` (30 R57, R51). -/
theorem test_decode_sta :
    decodesAll [([0x81, 0xC3], .staIzx 0xC3),
      ([0x91, 0xC3], .staIzy 0xC3),
      ([0x85, 0xC3], .staZp 0xC3),
      ([0x95, 0xC3], .staZpx 0xC3),
      ([0x99, 0x34, 0x12], .staAby 0x1234),
      ([0x8D, 0x34, 0x12], .staAbs 0x1234),
      ([0x9D, 0x34, 0x12], .staAbx 0x1234)] = true := by decide

/-- The words of `lda` (30 R57, R51). -/
theorem test_decode_lda :
    decodesAll [([0xA1, 0xC3], .ldaIzx 0xC3),
      ([0xB1, 0xC3], .ldaIzy 0xC3),
      ([0xA5, 0xC3], .ldaZp 0xC3),
      ([0xB5, 0xC3], .ldaZpx 0xC3),
      ([0xA9, 0xC3], .ldaImm 0xC3),
      ([0xB9, 0x34, 0x12], .ldaAby 0x1234),
      ([0xAD, 0x34, 0x12], .ldaAbs 0x1234),
      ([0xBD, 0x34, 0x12], .ldaAbx 0x1234)] = true := by decide

/-- The words of `sbc` (30 R57, R51). -/
theorem test_decode_sbc :
    decodesAll [([0xE1, 0xC3], .sbcIzx 0xC3),
      ([0xF1, 0xC3], .sbcIzy 0xC3),
      ([0xE5, 0xC3], .sbcZp 0xC3),
      ([0xF5, 0xC3], .sbcZpx 0xC3),
      ([0xE9, 0xC3], .sbcImm 0xC3),
      ([0xF9, 0x34, 0x12], .sbcAby 0x1234),
      ([0xED, 0x34, 0x12], .sbcAbs 0x1234),
      ([0xFD, 0x34, 0x12], .sbcAbx 0x1234)] = true := by decide

/-- The words of `asl` (30 R57, R51). -/
theorem test_decode_asl :
    decodesAll [([0x06, 0xC3], .aslZp 0xC3),
      ([0x16, 0xC3], .aslZpx 0xC3),
      ([0x0E, 0x34, 0x12], .aslAbs 0x1234),
      ([0x1E, 0x34, 0x12], .aslAbx 0x1234)] = true := by decide

/-- The words of `rol` (30 R57, R51). -/
theorem test_decode_rol :
    decodesAll [([0x26, 0xC3], .rolZp 0xC3),
      ([0x36, 0xC3], .rolZpx 0xC3),
      ([0x2E, 0x34, 0x12], .rolAbs 0x1234),
      ([0x3E, 0x34, 0x12], .rolAbx 0x1234)] = true := by decide

/-- The words of `lsr` (30 R57, R51). -/
theorem test_decode_lsr :
    decodesAll [([0x46, 0xC3], .lsrZp 0xC3),
      ([0x56, 0xC3], .lsrZpx 0xC3),
      ([0x4E, 0x34, 0x12], .lsrAbs 0x1234),
      ([0x5E, 0x34, 0x12], .lsrAbx 0x1234)] = true := by decide

/-- The words of `ror` (30 R57, R51). -/
theorem test_decode_ror :
    decodesAll [([0x66, 0xC3], .rorZp 0xC3),
      ([0x76, 0xC3], .rorZpx 0xC3),
      ([0x6E, 0x34, 0x12], .rorAbs 0x1234),
      ([0x7E, 0x34, 0x12], .rorAbx 0x1234)] = true := by decide

/-- The words of `inc` (30 R57, R51). -/
theorem test_decode_inc :
    decodesAll [([0xE6, 0xC3], .incZp 0xC3),
      ([0xF6, 0xC3], .incZpx 0xC3),
      ([0xEE, 0x34, 0x12], .incAbs 0x1234),
      ([0xFE, 0x34, 0x12], .incAbx 0x1234)] = true := by decide

/-- The words of `stx` (30 R57, R51). -/
theorem test_decode_stx :
    decodesAll [([0x86, 0xC3], .stxZp 0xC3),
      ([0x8E, 0x34, 0x12], .stxAbs 0x1234)] = true := by decide

/-- The words of `ldx` (30 R57, R51). -/
theorem test_decode_ldx :
    decodesAll [([0xA6, 0xC3], .ldxZp 0xC3),
      ([0xA2, 0xC3], .ldxImm 0xC3),
      ([0xAE, 0x34, 0x12], .ldxAbs 0x1234)] = true := by decide

/-- The words of `ldy` (30 R57, R51). -/
theorem test_decode_ldy :
    decodesAll [([0xA4, 0xC3], .ldyZp 0xC3),
      ([0xB4, 0xC3], .ldyZpx 0xC3),
      ([0xA0, 0xC3], .ldyImm 0xC3),
      ([0xAC, 0x34, 0x12], .ldyAbs 0x1234),
      ([0xBC, 0x34, 0x12], .ldyAbx 0x1234)] = true := by decide

/-- The words of `sty` (30 R57, R51). -/
theorem test_decode_sty :
    decodesAll [([0x84, 0xC3], .styZp 0xC3),
      ([0x94, 0xC3], .styZpx 0xC3),
      ([0x8C, 0x34, 0x12], .styAbs 0x1234)] = true := by decide

/-- The words of the Implied instructions (30 R57, R51). -/
theorem test_decode_implied :
    decodesAll [([0xAA], .tax), ([0xA8], .tay), ([0x8A], .txa), ([0x98], .tya), ([0xBA], .tsx),
      ([0x9A], .txs), ([0xE8], .inx), ([0xC8], .iny), ([0xCA], .dex), ([0x88], .dey),
      ([0x38], .sec), ([0x18], .clc), ([0xF8], .sed), ([0xD8], .cld), ([0x78], .sei),
      ([0x58], .cli), ([0xB8], .clv), ([0xEA], .nop)] = true := by decide

/-- One opcode byte of every family written out in bits: low nibble and high nibble of 30 R53. -/
theorem test_decode_bits :
    decodesAll [([0b10100001, 0x20], .ldaIzx 0x20), ([0b11100110, 0x10], .incZp 0x10), ([0b01001001, 0xFF], .eorImm 0xFF),
      ([0b01101001, 0x01], .adcImm 0x01), ([0b00100110, 0x10], .rolZp 0x10), ([0b10011010], .txs), ([0b00111000], .sec)] =
      true := by decide

/-- Bytes after the instruction are left over (30 R61). -/
theorem test_decode_leaves_the_rest : decode [0xEA, 0x38] = .ok (.nop, [0x38]) := by rfl

/-- An assigned opcode without its operand is refused by name (log entry 9). -/
theorem test_decode_truncated : decode [0xAD, 0x34] = .error (.truncated 0xAD) := by rfl

/-- Nothing decodes from nothing (log entry 9). -/
theorem test_decode_empty : decode [] = .error .noBytes := by rfl

/-- 0x29 has the mode Immediate by the closed form and no mnemonic (30 R60, V130). -/
theorem test_decode_unassigned : decode [0x29, 0xFF] = .error (.unrecognizedOpcode 0x29) := by rfl

/-- A word of the opcode table has its first byte in bits 7..0. -/
theorem test_decodeTableWord_low_byte_first : decodeTableWord 24 0x1234AD = some (.ldaAbs 0x1234) := by rfl

/-- The bits above `nbits` are 0. -/
theorem test_decodeTableWord_opcode_alone : decodeTableWord 8 0xFFAD = some (.ldaAbs 0x0000) := by rfl

/-- The word placed where the step fetches is what the step runs. -/
theorem test_withFetchWord_runs :
    (after (State.reset.withFetchWord 16 0x5AA9)).map (fun t => (t.ac, t.pc)) = some (0x5A, 0x0002) := by decide

/-- "`assign(Zero, value == 0)`" and N from bit 7: the row v = 80 from SR = 7D of E1. -/
theorem test_setZN_negative : (({ State.reset with sr := 0x7D } : State).setZN 0x80).sr = 0xFD := by decide

/-- "`readWord(0xFFFF)` equals `(memory[0x0000] << 8) | memory[0xFFFF]`" (E2). -/
theorem test_memRead16_wraps :
    (startAt 0x0200 [(0x0000, 0x12), (0x0001, 0xEE), (0xFFFF, 0x34)]).memRead16 0xFFFF = 0x1234 := by decide

/-- Writing the byte an unlisted address reads as removes the cell (log entry 12). -/
theorem test_memWrite_keeps_the_form : Memory.write [(0x0010, 0xAA)] 0x0010 0x00 = [] := by decide

/-! Single steps: the rows of 95_test_vectors, and the fields they change. -/

/-- V2: `lda ($F0,x)`. -/
theorem test_lda_izx_pointer_wraps_in_zero_page :
    (after { startAt 0x0200 [(0x0010, 0x34), (0x0011, 0x12), (0x0200, 0xA1), (0x0201, 0xF0), (0x1234, 0x5A)] with x := 0x20 }).map (fun t => t.ac) =
      some 0x5A := by decide

/-- V3: `lda ($FF,x)`. -/
theorem test_lda_izx_pointer_high_byte_from_0100 :
    (after (startAt 0x0200 [(0x0000, 0x77), (0x00FF, 0x34), (0x0100, 0x12), (0x0200, 0xA1), (0x0201, 0xFF), (0x1234, 0x5A), (0x7734, 0xEE)])).map (fun t => t.ac) =
      some 0x5A := by decide

/-- V6: `lda ($86),y`. -/
theorem test_lda_izy_wraps_at_the_top :
    (after { startAt 0x0200 [(0x0001, 0x42), (0x0086, 0xFF), (0x0087, 0xFF), (0x0200, 0xB1), (0x0201, 0x86)] with y := 0x02 }).map (fun t => t.ac) =
      some 0x42 := by decide

/-- V7: `lda ($FF),y`. -/
theorem test_lda_izy_pointer_at_00FF :
    (after { startAt 0x0200 [(0x0100, 0x30), (0x0200, 0xB1), (0x0201, 0xFF), (0x3005, 0x11)] with y := 0x05 }).map (fun t => t.ac) =
      some 0x11 := by decide

/-- V8: `lda $80`. -/
theorem test_lda_zp_zero_sets_z_clears_n :
    (after { startAt 0x0200 [(0x0200, 0xA5), (0x0201, 0x80)] with ac := 0xFF, sr := 0xA0 }).map (fun t => (t.ac, t.sr)) =
      some (0x00, 0x22) := by decide

/-- V10: `lda $FF,x`. -/
theorem test_lda_zpx_wraps_in_zero_page :
    (after { startAt 0x0200 [(0x0001, 0xC3), (0x0101, 0x55), (0x0200, 0xB5), (0x0201, 0xFF)] with x := 0x02 }).map (fun t => (t.ac, t.sr)) =
      some (0xC3, 0xA0) := by decide

/-- V12: `lda #$5A`. -/
theorem test_lda_imm_operand_at_0000 :
    (after (startAt 0xFFFF [(0x0000, 0x5A), (0xFFFF, 0xA9)])).map (fun t => (t.ac, t.pc)) =
      some (0x5A, 0x0001) := by decide

/-- V14: `lda $FFF0,y`. -/
theorem test_lda_aby_wraps :
    (after { startAt 0x0200 [(0x0010, 0x08), (0x0200, 0xB9), (0x0201, 0xF0), (0x0202, 0xFF)] with y := 0x20 }).map (fun t => t.ac) =
      some 0x08 := by decide

/-- V16: `lda $1234`. -/
theorem test_lda_abs_operand_across_the_top :
    (after (startAt 0xFFFE [(0x0000, 0x12), (0x1234, 0x09), (0xFFFE, 0xAD), (0xFFFF, 0x34)])).map (fun t => (t.ac, t.pc)) =
      some (0x09, 0x0001) := by decide

/-- V18: `lda $FFFF,x`. -/
theorem test_lda_abx_wraps :
    (after { startAt 0x0200 [(0x0000, 0x44), (0x0200, 0xBD), (0x0201, 0xFF), (0x0202, 0xFF)] with x := 0x01 }).map (fun t => t.ac) =
      some 0x44 := by decide

/-- V19: `ldx #$00`. -/
theorem test_ldx_imm_zero :
    (after { startAt 0x0200 [(0x0200, 0xA2)] with x := 0x55 }).map (fun t => (t.x, t.sr)) =
      some (0x00, 0x22) := by decide

/-- V21: `ldx $1234`. -/
theorem test_ldx_abs :
    (after (startAt 0x0200 [(0x0200, 0xAE), (0x0201, 0x34), (0x0202, 0x12), (0x1234, 0x01)])).map (fun t => (t.x, t.sr)) =
      some (0x01, 0x20) := by decide

/-- V24: `ldy $10,x`. -/
theorem test_ldy_zpx_zero :
    (after { startAt 0x0200 [(0x0200, 0xB4), (0x0201, 0x10)] with x := 0x03, y := 0x09 }).map (fun t => (t.y, t.sr)) =
      some (0x00, 0x22) := by decide

/-- V26: `ldy $1234,x`. -/
theorem test_ldy_abx_negative :
    (after { startAt 0x0200 [(0x0200, 0xBC), (0x0201, 0x34), (0x0202, 0x12), (0x1238, 0x90)] with x := 0x04 }).map (fun t => (t.y, t.sr)) =
      some (0x90, 0xA0) := by decide

/-- V27: `sta $10`. -/
theorem test_sta_zp_writes_no_flag :
    (after { startAt 0x0200 [(0x0010, 0xAA), (0x0200, 0x85), (0x0201, 0x10)] with sr := 0xA1 }).map (fun t => (t.memRead 0x0010, t.sr)) =
      some (0x00, 0xA1) := by decide

/-- V31: `sta $1234,y`. -/
theorem test_sta_aby :
    (after { startAt 0x0200 [(0x0200, 0x99), (0x0201, 0x34), (0x0202, 0x12)] with ac := 0x56, y := 0x02 }).map (fun t => t.memRead 0x1236) =
      some 0x56 := by decide

/-- V32: `sta ($20,x)`. -/
theorem test_sta_izx :
    (after { startAt 0x0200 [(0x0023, 0x40), (0x0200, 0x81), (0x0201, 0x20)] with ac := 0x78, x := 0x02 }).map (fun t => t.memRead 0x4000) =
      some 0x78 := by decide

/-- V33: `sta ($20),y`. -/
theorem test_sta_izy :
    (after { startAt 0x0200 [(0x0021, 0x40), (0x0200, 0x91), (0x0201, 0x20)] with ac := 0x9A, y := 0x03 }).map (fun t => t.memRead 0x4003) =
      some 0x9A := by decide

/-- V34: `sta $0201`. -/
theorem test_sta_over_its_own_operand :
    (after { startAt 0x0200 [(0x0200, 0x8D), (0x0201, 0x01), (0x0202, 0x02)] with ac := 0xEA }).map (fun t => (t.memRead 0x0201, t.pc)) =
      some (0xEA, 0x0203) := by decide

/-- V35: `stx $10`. -/
theorem test_stx_zp :
    (after { startAt 0x0200 [(0x0200, 0x86), (0x0201, 0x10)] with x := 0xFF }).map (fun t => t.memRead 0x0010) =
      some 0xFF := by decide

/-- V38: `sty $10,x`. -/
theorem test_sty_zpx_wraps_in_zero_page :
    (after { startAt 0x0200 [(0x0200, 0x94), (0x0201, 0x10)] with x := 0xF8, y := 0x03 }).map (fun t => t.memRead 0x0008) =
      some 0x03 := by decide

/-- V40: `tax`. -/
theorem test_tax :
    (after { startAt 0x0200 [(0x0200, 0xAA)] with ac := 0x80, x := 0x01 }).map (fun t => (t.x, t.sr)) =
      some (0x80, 0xA0) := by decide

/-- V41: `tay`. -/
theorem test_tay :
    (after { startAt 0x0200 [(0x0200, 0xA8)] with y := 0x01 }).map (fun t => (t.y, t.sr)) =
      some (0x00, 0x22) := by decide

/-- V42: `txa`. -/
theorem test_txa_clears_z_and_n :
    (after { startAt 0x0200 [(0x0200, 0x8A)] with x := 0x7F, sr := 0xA2 }).map (fun t => (t.ac, t.sr)) =
      some (0x7F, 0x20) := by decide

/-- V43: `tya`. -/
theorem test_tya :
    (after { startAt 0x0200 [(0x0200, 0x98)] with y := 0xFF }).map (fun t => (t.ac, t.sr)) =
      some (0xFF, 0xA0) := by decide

/-- V45: `tsx`. -/
theorem test_tsx :
    (after { startAt 0x0200 [(0x0200, 0xBA)] with sp := 0xFD }).map (fun t => (t.x, t.sr)) =
      some (0xFD, 0xA0) := by decide

/-- V46: `txs`. -/
theorem test_txs_zero_sets_no_flag :
    (after { startAt 0x0200 [(0x0200, 0x9A)] with sp := 0x44 }).map (fun t => (t.sp, t.sr)) =
      some (0x00, 0x20) := by decide

/-- V47: `txs`. -/
theorem test_txs_negative_sets_no_flag :
    (after { startAt 0x0200 [(0x0200, 0x9A)] with x := 0x80, sp := 0x44, sr := 0x22 }).map (fun t => (t.sp, t.sr)) =
      some (0x80, 0x22) := by decide

/-- V48: `inc $10`. -/
theorem test_inc_wraps_and_keeps_carry :
    (after { startAt 0x0200 [(0x0010, 0xFF), (0x0200, 0xE6), (0x0201, 0x10)] with sr := 0x21 }).map (fun t => (t.memRead 0x0010, t.sr)) =
      some (0x00, 0x23) := by decide

/-- V51: `inc $1234,x`. -/
theorem test_inc_abx :
    (after { startAt 0x0200 [(0x0200, 0xFE), (0x0201, 0x34), (0x0202, 0x12), (0x1235, 0xFE)] with x := 0x01 }).map (fun t => (t.memRead 0x1235, t.sr)) =
      some (0xFF, 0xA0) := by decide

/-- V52: `inx`. -/
theorem test_inx_wraps :
    (after { startAt 0x0200 [(0x0200, 0xE8)] with x := 0xFF }).map (fun t => (t.x, t.sr)) =
      some (0x00, 0x22) := by decide

/-- V55: `iny`. -/
theorem test_iny_wraps :
    (after { startAt 0x0200 [(0x0200, 0xC8)] with y := 0xFF }).map (fun t => (t.y, t.sr)) =
      some (0x00, 0x22) := by decide

/-- V56: `dex`. -/
theorem test_dex_wraps :
    (after (startAt 0x0200 [(0x0200, 0xCA)])).map (fun t => (t.x, t.sr)) =
      some (0xFF, 0xA0) := by decide

/-- V58: `dey`. -/
theorem test_dey_clears_n :
    (after { startAt 0x0200 [(0x0200, 0x88)] with y := 0x80, sr := 0xA0 }).map (fun t => (t.y, t.sr)) =
      some (0x7F, 0x20) := by decide

/-- V61: `eor #$AA`. -/
theorem test_eor_imm_keeps_v_and_c :
    (after { startAt 0x0200 [(0x0200, 0x49), (0x0201, 0xAA)] with ac := 0xAA, sr := 0xE1 }).map (fun t => (t.ac, t.sr)) =
      some (0x00, 0x63) := by decide

/-- V63: `eor ($20),y`. -/
theorem test_eor_izy :
    (after { startAt 0x0200 [(0x0021, 0x30), (0x0200, 0x51), (0x0201, 0x20), (0x3001, 0x81)] with ac := 0x01, y := 0x01 }).map (fun t => (t.ac, t.sr)) =
      some (0x80, 0xA0) := by decide

/-- V66: `ora $1234,x`. -/
theorem test_ora_abx :
    (after { startAt 0x0200 [(0x0200, 0x1D), (0x0201, 0x34), (0x0202, 0x12), (0x1236, 0x0C)] with ac := 0x30, x := 0x02 }).map (fun t => (t.ac, t.sr)) =
      some (0x3C, 0x20) := by decide

/-- V67: `ora ($20,x)`. -/
theorem test_ora_izx_is_opcode_01 :
    (after { startAt 0x0200 [(0x0021, 0x30), (0x0200, 0x01), (0x0201, 0x20), (0x3000, 0x55)] with ac := 0xAA }).map (fun t => (t.ac, t.sr)) =
      some (0xFF, 0xA0) := by decide

/-- V68: `adc #$01`. -/
theorem test_adc_signed_overflow :
    (after { startAt 0x0200 [(0x0200, 0x69), (0x0201, 0x01)] with ac := 0x7F }).map (fun t => (t.ac, t.sr)) =
      some (0x80, 0xE0) := by decide

/-- V81: `adc #$01`. -/
theorem test_adc_is_binary_with_d_set :
    (after { startAt 0x0200 [(0x0200, 0x69), (0x0201, 0x01)] with ac := 0x09, sr := 0x28 }).map (fun t => (t.ac, t.sr)) =
      some (0x0A, 0x28) := by decide

/-- V76: `adc #$FF`. -/
theorem test_adc_negative_overflow_and_carry :
    (after { startAt 0x0200 [(0x0200, 0x69), (0x0201, 0xFF)] with ac := 0x80 }).map (fun t => (t.ac, t.sr)) =
      some (0x7F, 0x61) := by decide

/-- V85: `sbc #$03`. -/
theorem test_sbc_borrow_in :
    (after { startAt 0x0200 [(0x0200, 0xE9), (0x0201, 0x03)] with ac := 0x05 }).map (fun t => (t.ac, t.sr)) =
      some (0x01, 0x21) := by decide

/-- V86: `sbc #$05`. -/
theorem test_sbc_borrow_out :
    (after { startAt 0x0200 [(0x0200, 0xE9), (0x0201, 0x05)] with ac := 0x03, sr := 0x21 }).map (fun t => (t.ac, t.sr)) =
      some (0xFE, 0xA0) := by decide

/-- V96: `sbc #$01`. -/
theorem test_sbc_is_binary_with_d_set :
    (after { startAt 0x0200 [(0x0200, 0xE9), (0x0201, 0x01)] with ac := 0x10, sr := 0x29 }).map (fun t => (t.ac, t.sr)) =
      some (0x0F, 0x29) := by decide

/-- V97: `rol $10`. -/
theorem test_rol_zp :
    (after (startAt 0x0200 [(0x0010, 0x81), (0x0200, 0x26), (0x0201, 0x10)])).map (fun t => (t.memRead 0x0010, t.sr)) =
      some (0x02, 0x21) := by decide

/-- V99: `rol $10`. -/
theorem test_rol_carry_into_bit_0 :
    (after { startAt 0x0200 [(0x0200, 0x26), (0x0201, 0x10)] with sr := 0x21 }).map (fun t => (t.memRead 0x0010, t.sr)) =
      some (0x01, 0x20) := by decide

/-- V105: `ror $10,x`. -/
theorem test_ror_zpx_carry_into_bit_7 :
    (after { startAt 0x0200 [(0x0200, 0x76), (0x0201, 0x10)] with x := 0x02, sr := 0x21 }).map (fun t => (t.memRead 0x0012, t.sr)) =
      some (0x80, 0xA0) := by decide

/-- V103: `ror $10`. -/
theorem test_ror_zp :
    (after (startAt 0x0200 [(0x0010, 0x81), (0x0200, 0x66), (0x0201, 0x10)])).map (fun t => (t.memRead 0x0010, t.sr)) =
      some (0x40, 0x21) := by decide

/-- V108: `asl $10`. -/
theorem test_asl_loses_the_old_carry :
    (after { startAt 0x0200 [(0x0010, 0x81), (0x0200, 0x06), (0x0201, 0x10)] with sr := 0x21 }).map (fun t => (t.memRead 0x0010, t.sr)) =
      some (0x02, 0x21) := by decide

/-- V112: `asl $1234,x`. -/
theorem test_asl_abx :
    (after { startAt 0x0200 [(0x0200, 0x1E), (0x0201, 0x34), (0x0202, 0x12), (0x1235, 0xFF)] with x := 0x01 }).map (fun t => (t.memRead 0x1235, t.sr)) =
      some (0xFE, 0xA1) := by decide

/-- V114: `lsr $10`. -/
theorem test_lsr_clears_n :
    (after { startAt 0x0200 [(0x0010, 0x01), (0x0200, 0x46), (0x0201, 0x10)] with sr := 0xA0 }).map (fun t => (t.memRead 0x0010, t.sr)) =
      some (0x00, 0x23) := by decide

/-- V115: `lsr $10,x`. -/
theorem test_lsr_zpx_no_carry_in :
    (after { startAt 0x0200 [(0x0011, 0xFF), (0x0200, 0x56), (0x0201, 0x10)] with x := 0x01, sr := 0x21 }).map (fun t => (t.memRead 0x0011, t.sr)) =
      some (0x7F, 0x21) := by decide

/-- V118: `sec`. -/
theorem test_sec :
    (after (startAt 0x0200 [(0x0200, 0x38)])).map (fun t => t.sr) =
      some 0x21 := by decide

/-- V120: `clc`. -/
theorem test_clc :
    (after { startAt 0x0200 [(0x0200, 0x18)] with sr := 0xFF }).map (fun t => t.sr) =
      some 0xFE := by decide

/-- V121: `sed`. -/
theorem test_sed :
    (after (startAt 0x0200 [(0x0200, 0xF8)])).map (fun t => t.sr) =
      some 0x28 := by decide

/-- V122: `cld`. -/
theorem test_cld :
    (after { startAt 0x0200 [(0x0200, 0xD8)] with sr := 0xFF }).map (fun t => t.sr) =
      some 0xF7 := by decide

/-- V123: `sei`. -/
theorem test_sei :
    (after (startAt 0x0200 [(0x0200, 0x78)])).map (fun t => t.sr) =
      some 0x24 := by decide

/-- V124: `cli`. -/
theorem test_cli :
    (after { startAt 0x0200 [(0x0200, 0x58)] with sr := 0xFF }).map (fun t => t.sr) =
      some 0xFB := by decide

/-- V125: `clv`. -/
theorem test_clv :
    (after { startAt 0x0200 [(0x0200, 0xB8)] with sr := 0xFF }).map (fun t => t.sr) =
      some 0xBF := by decide

/-- V127: `nop`. -/
theorem test_nop_changes_only_pc :
    (after { startAt 0x0200 [(0x0200, 0xEA)] with ac := 0x12, x := 0x34, y := 0x56, sp := 0x78, sr := 0xFF }).map (fun t => (t.pc, t.sr)) =
      some (0x0201, 0xFF) := by decide

/-- V128: `nop`. -/
theorem test_nop_wraps_pc :
    (after (startAt 0xFFFF [(0xFFFF, 0xEA)])).map (fun t => t.pc) =
      some 0x0000 := by decide

/-- V34: a store to its own operand byte; the accesses in the order of 20 R37. -/
theorem test_accesses_sta_over_its_own_operand :
    ({ startAt 0x0200 [(0x0200, 0x8D), (0x0201, 0x01), (0x0202, 0x02)] with ac := 0xEA } : State).stepAccesses =
      [.read 0x0200 0x8D, .read 0x0201 0x01, .read 0x0202 0x02, .write 0x0201 0xEA] := by decide

/-- V48: `inc` reads its byte and then writes it. -/
theorem test_accesses_inc :
    (startAt 0x0200 [(0x0010, 0xFF), (0x0200, 0xE6), (0x0201, 0x10)]).stepAccesses =
      [.read 0x0200 0xE6, .read 0x0201 0x10, .read 0x0010 0xFF, .write 0x0010 0x00] := by decide

/-- V7: the pointer bytes at 0x00FF and 0x0100. -/
theorem test_accesses_lda_izy :
    ({ startAt 0x0200 [(0x0100, 0x30), (0x0200, 0xB1), (0x0201, 0xFF), (0x3005, 0x11)] with y := 0x05 } : State).stepAccesses =
      [.read 0x0200 0xB1, .read 0x0201 0xFF, .read 0x00FF 0x00, .read 0x0100 0x30, .read 0x3005 0x11] := by decide

/-- V136: the error at the top address. -/
theorem test_unassigned_at_the_top :
    faultOf (startAt 0xFFFF [(0xFFFF, 0xFF)]) = some (.unrecognizedOpcode 0xFFFF 0xFF) := by decide

/-- V130: a generic opcode without a mnemonic, its operand not read. -/
theorem test_unassigned_generic :
    (startAt 0x0200 [(0x0200, 0x29), (0x0201, 0xFF)]).stepAccesses = [.read 0x0200 0x29] := by decide

/-- From reset with nothing placed, the first step meets the unassigned byte 0x00 (log entry 10). -/
theorem test_reset_raises : faultOf State.reset = some (.unrecognizedOpcode 0x0000 0x00) := by decide

/-! Witnesses: for each obligation with hypotheses, what meets them. -/

/-- `lda $1234` at 0x0200. -/
def ldaAt : State := startAt 0x0200 [(0x0200, 0xAD), (0x0201, 0x34), (0x0202, 0x12), (0x1234, 0xFE)]

/-- `lda #$5A` with its opcode at 0xFFFF (V12). -/
def ldaAtTop : State := startAt 0xFFFF [(0x0000, 0x5A), (0xFFFF, 0xA9)]

/-- `inc $10` at 0x0200 over the byte 0xFF (V48). -/
def incAt : State := startAt 0x0200 [(0x0010, 0xFF), (0x0200, 0xE6), (0x0201, 0x10)]

/-- The unassigned byte 0x00 at 0x0200 (V129). -/
def unassignedAt : State := startAt 0x0200 []

/-- The unassigned byte 0xFF at 0xFFFF (V136). -/
def unassignedAtTop : State := startAt 0xFFFF [(0xFFFF, 0xFF)]

theorem witness_DecodedBytesAreTheEncoding : decode [0xAD, 0x34, 0x12, 0x99] = .ok (.ldaAbs 0x1234, [0x99]) := by rfl

theorem witness_UnassignedBytesRaise_nop : decode (0xEA :: [0x38]) = .ok (.nop, [0x38]) := by rfl

theorem witness_UnassignedBytesRaise_first :
    unassignedAt.memRead unassignedAt.pc ∈ Claims.unassignedOutside ++ Claims.unassignedGeneric := by decide

theorem witness_UnassignedBytesRaise_last :
    unassignedAtTop.memRead unassignedAtTop.pc ∈ Claims.unassignedOutside ++ Claims.unassignedGeneric := by decide

theorem witness_GenericBytesWithoutMnemonicRaise :
    0x21 ∈ Claims.unassignedGeneric ∧ 0xBE ∈ Claims.unassignedGeneric ∧
    (startAt 0x0200 [(0x0200, 0x21)]).memRead (startAt 0x0200 [(0x0200, 0x21)]).pc = 0x21 ∧
    (startAt 0x0200 [(0x0200, 0xBE)]).memRead (startAt 0x0200 [(0x0200, 0xBE)]).pc = 0xBE := by decide

theorem witness_GenericModeIsTheModeOfTheTable :
    encode (.oraIzx 0x20) = 0x01 :: [0x20] ∧ isGeneric 0x01 = true ∧
    encode (.incAbx 0x1234) = 0xFE :: [0x34, 0x12] ∧ isGeneric 0xFE = true ∧ 0x9E ∈ [0x96, 0xB6, 0xBE, 0x9E] := by decide

theorem witness_OpcodeAloneDeterminesTheLength_sameOpcode :
    (encode (.ldaAbs 0x1234)).head? = (encode (.ldaAbs 0x0000)).head? := by decide

theorem witness_OpcodeAloneDeterminesTheLength_fetch :
    decode ldaAt.fetchBytes = .ok (.ldaAbs 0x1234, []) ∧ decode ldaAtTop.fetchBytes = .ok (.ldaImm 0x5A, []) := ⟨rfl, rfl⟩

theorem witness_FormsAssembleExactlyByTheTable :
    Form.toInstr ⟨.lda, .absolute, .word 0x0010⟩ = some (.ldaAbs 0x0010) := by decide

theorem witness_MemWriteChangesOneByte : incAt.mem.wf = true ∧ ldaAtTop.mem.wf = true := by decide

theorem witness_StoresByte : incAt.mem.wf = true ∧ (incAt.memWrite 0xFFFF 0x80).mem.wf = true := by decide

/-- Arguments of construction with `BCD_OPTION` absent. -/
def initAbsent : Config.Init := { Config.typicalInit 0xFFFC with sr := 0x00 }

/-- The same with `BCD_OPTION` present. -/
def initPresent : Config.Init := { initAbsent with bcd := .present }

theorem witness_ConstructionGivesTheSuppliedState : initAbsent.bcd = .absent := by rfl

/-- What construction gives from `initAbsent`. -/
theorem witness_ConstructedStateMeetsTheInvariant :
    State.construct initAbsent = .next { State.reset with pc := 0xFFFC } := by
  rw [show State.construct initAbsent =
    .next { State.reset with pc := 0xFFFC, mem := Memory.ofImage initAbsent.mem } from rfl]
  rw [show initAbsent.mem = (Config.typicalInit 0xFFFC).mem from rfl, Memory.ofImage_typical]
  rfl

theorem witness_StepKeepsTheInvariant :
    incAt.Inv ∧ step incAt = .next { incAt with pc := 0x0202, sr := 0x22, mem := [(0x0200, 0xE6), (0x0201, 0x10)] } :=
  ⟨by decide, rfl⟩

theorem witness_IgnoredBitIsAlwaysOne_exec :
    exec (.incZp 0x10) incAt = .next { incAt with pc := 0x0202, sr := 0x22, mem := [(0x0200, 0xE6), (0x0201, 0x10)] } := by rfl

theorem witness_IgnoredBitIsAlwaysOne_reachable : Reachable initAbsent { State.reset with pc := 0xFFFC } :=
  .constructed _ witness_ConstructedStateMeetsTheInvariant

theorem witness_BreakBitKeepsItsConstructionValue :
    exec .sec ldaAt = .next { ldaAt with pc := 0x0201, sr := 0x21 } ∧ Reachable initAbsent { State.reset with pc := 0xFFFC } :=
  ⟨rfl, witness_IgnoredBitIsAlwaysOne_reachable⟩

theorem witness_StepRunsTheDecodedInstruction_decoded : decode ldaAtTop.fetchBytes = .ok (.ldaImm 0x5A, []) := by rfl

theorem witness_StepRunsTheDecodedInstruction_bytesAtPc :
    ∀ k, (h : k < (encode (.ldaImm 0x5A)).length) →
      ldaAtTop.memRead (ldaAtTop.pc + BitVec.ofNat 16 k) = (encode (.ldaImm 0x5A))[k] := by decide

theorem witness_StepReturnsOrRaises_returns :
    ldaAt.memRead ldaAt.pc ∉ Claims.unassignedOutside ++ Claims.unassignedGeneric := by decide

theorem witness_StepReturnsOrRaises_raises :
    unassignedAt.memRead unassignedAt.pc ∈ Claims.unassignedOutside ++ Claims.unassignedGeneric := by decide

theorem witness_PcAdvancesByTheWidthOnly :
    step ldaAt = .next { ldaAt with pc := 0x0203, ac := 0xFE, sr := 0xA0 } ∧
    0x4C ∈ [0x10, 0x30, 0x50, 0x70, 0x90, 0xB0, 0xD0, 0xF0, 0x4C, 0x6C, 0x20, 0x60, 0x40, 0x00] := ⟨rfl, by decide⟩

theorem witness_InstructionStreamWraps_toZero :
    exec .nop ldaAtTop = .next { ldaAtTop with pc := 0x0000 } ∧ ldaAtTop.pc.toNat + Instr.width .nop = 65536 := ⟨rfl, rfl⟩

theorem witness_InstructionStreamWraps_atTop :
    ldaAtTop.pc = 0xFFFF ∧ exec (.ldaAbs 0x0000) ldaAtTop = .next { ldaAtTop with pc := 0x0002, ac := 0x5A } := ⟨rfl, rfl⟩

theorem witness_ErrorRepeatsOnTheSameState :
    unassignedAt.hostStep = (.fault (.unrecognizedOpcode 0x0200 0x00), unassignedAt) := by rfl

theorem witness_AccessesExplainTheMemory :
    step incAt = .next { incAt with pc := 0x0202, sr := 0x22, mem := [(0x0200, 0xE6), (0x0201, 0x10)] } ∧
    decode incAt.fetchBytes = .ok (.incZp 0x10, []) ∧ writesData (Instr.mnemonic (.incZp 0x10)) = true :=
  ⟨rfl, rfl, rfl⟩

theorem witness_OnlyTheEffectiveAddressIsWritten :
    incAt.mem.wf = true ∧ incAt.storeAddress (.incZp 0x10) ≠ some 0x0011 ∧
    incAt.storeAddress (.incZp 0x10) = some 0x0010 := by decide

theorem witness_NextFetchSeesTheStore_opcode :
    incAt.mem.wf = true ∧ exec (.staAbs 0x0203) incAt = .next { incAt with pc := 0x0203 } ∧
    incAt.storeAddress (.staAbs 0x0203) = some 0x0203 := ⟨by decide, rfl, by decide⟩

theorem witness_NextFetchSeesTheStore_operand :
    incAt.mem.wf = true ∧ exec (.staAbs 0x0204) incAt = .next { incAt with pc := 0x0203 } ∧
    incAt.storeAddress (.staAbs 0x0204) = some (0x0203 + 1) := ⟨by decide, rfl, by decide⟩

theorem witness_DecodedOperandResolvesTheSameAddress :
    decode ldaAtTop.fetchBytes = .ok (.ldaImm 0x5A, []) ∧ Instr.mode (.ldaImm 0x5A) = .immediate ∧
    (Instr.form (.ldaImm 0x5A)).operand = .byte 0x5A := ⟨rfl, rfl, rfl⟩

theorem witness_ZeroPageModesStayInTheZeroPage :
    (startAt 0x0200 [(0x0201, 0xFF)]).pointerAddress .indirectIndexedY = some 0x00FF ∧
    (startAt 0x0200 [(0x0201, 0xFF)]).pointerAddress .indexedIndirectX = some 0x00FF := by decide

theorem witness_FlagDisciplineMatrix :
    5 < 8 ∧ 5 ∉ Claims.writtenBits (Instr.mnemonic (.adcImm 0x01)) ∧
    1 ∈ Claims.writtenBits (Instr.mnemonic (.adcImm 0x01)) := by decide

theorem witness_RegistersHaveOnlyTheirWriters :
    Instr.mnemonic .nop ∉ [Mnemonic.lda, .txa, .tya, .eor, .ora, .adc, .sbc] ∧
    Instr.mnemonic .nop ∉ [Mnemonic.ldx, .tax, .tsx, .inx, .dex] ∧
    Instr.mnemonic .nop ∉ [Mnemonic.ldy, .tay, .iny, .dey] ∧ Instr.mnemonic .nop ≠ .txs := by decide

theorem witness_NoFlagButCarryIsRead_reader :
    Instr.mnemonic (.adcImm 0x01) ∈ [Mnemonic.adc, .sbc, .rol, .ror] ∧
    (0xFE : Word).getLsbD 0 = ldaAt.sr.getLsbD 0 ∧ 6 ∈ Claims.writtenBits (Instr.mnemonic (.adcImm 0x01)) := by decide

theorem witness_NoFlagButCarryIsRead_other :
    Instr.mnemonic (.aslZp 0x10) ∈ [Mnemonic.adc, .sbc, .rol, .ror] → (0xFF : Word).getLsbD 0 = ldaAt.sr.getLsbD 0 := by
  decide

theorem witness_StackPointerIsStorageOnly : Instr.txs ≠ Instr.tsx ∧ Instr.nop ≠ Instr.tsx := by decide

theorem witness_DecimalFlagIsIgnoredByArithmetic :
    (Instr.mnemonic (.adcImm 0x01) = .adc ∨ Instr.mnemonic (.adcImm 0x01) = .sbc) ∧
    (Instr.mnemonic (.sbcZp 0x10) = .adc ∨ Instr.mnemonic (.sbcZp 0x10) = .sbc) := by decide

theorem witness_ConstructionRefusesTheDecimalOption :
    initPresent.bcd = .present ∧ initAbsent.bcd = .absent ∧ Reachable initAbsent { State.reset with pc := 0xFFFC } :=
  ⟨rfl, rfl, witness_IgnoredBitIsAlwaysOne_reachable⟩

theorem witness_LdaLoadsTheOperandByte :
    (.ldaImm 0x20, [0xA9, 0x20], 0x20) ∈ Claims.ldaForms ldaAt 0x20 0x1234 ∧
    (.ldaAbs 0x1234, [0xAD, 0x34, 0x12], 0xFE) ∈ Claims.ldaForms ldaAt 0x20 0x1234 := by decide

theorem witness_LdxLoadsTheOperandByte :
    (.ldxImm 0x20, [0xA2, 0x20], 0x20) ∈ Claims.ldxForms ldaAt 0x20 0x1234 ∧
    (.ldxAbs 0x1234, [0xAE, 0x34, 0x12], 0xFE) ∈ Claims.ldxForms ldaAt 0x20 0x1234 := by decide

theorem witness_LdyLoadsTheOperandByte :
    (.ldyImm 0x20, [0xA0, 0x20], 0x20) ∈ Claims.ldyForms ldaAt 0x20 0x1234 ∧
    (.ldyAbs 0x1234, [0xAC, 0x34, 0x12], 0xFE) ∈ Claims.ldyForms ldaAt 0x20 0x1234 := by decide

theorem witness_StaStoresTheRegister :
    (.staZp 0x20, [0x85, 0x20], 0x0020) ∈ Claims.staForms ldaAt 0x20 0xFFFF ∧
    (.staAbs 0xFFFF, [0x8D, 0xFF, 0xFF], 0xFFFF) ∈ Claims.staForms ldaAt 0x20 0xFFFF ∧ ldaAt.mem.wf = true := by decide

theorem witness_StxStoresTheRegister :
    (.stxZp 0x20, [0x86, 0x20], 0x0020) ∈ Claims.stxForms ldaAt 0x20 0xFFFF ∧
    (.stxAbs 0xFFFF, [0x8E, 0xFF, 0xFF], 0xFFFF) ∈ Claims.stxForms ldaAt 0x20 0xFFFF ∧ ldaAt.mem.wf = true := by decide

theorem witness_StyStoresTheRegister :
    (.styZpx 0x20, [0x94, 0x20], 0x0020) ∈ Claims.styForms ldaAt 0x20 0xFFFF ∧
    (.styAbs 0xFFFF, [0x8C, 0xFF, 0xFF], 0xFFFF) ∈ Claims.styForms ldaAt 0x20 0xFFFF ∧ ldaAt.mem.wf = true := by decide

theorem witness_IncIncrementsTheMemoryByte :
    (.incZp 0x10, [0xE6, 0x10], 0x0010) ∈ Claims.incForms incAt 0x10 0xFFFF ∧
    (.incAbx 0xFFFF, [0xFE, 0xFF, 0xFF], 0xFFFF) ∈ Claims.incForms incAt 0x10 0xFFFF ∧ incAt.mem.wf = true := by decide

theorem witness_EorCombinesIntoTheAccumulator :
    (.eorImm 0x20, [0x49, 0x20], 0x20) ∈ Claims.eorForms ldaAt 0x20 0x1234 ∧
    (.eorAbs 0x1234, [0x4D, 0x34, 0x12], 0xFE) ∈ Claims.eorForms ldaAt 0x20 0x1234 ∧ 7 < 8 := by decide

theorem witness_OraCombinesIntoTheAccumulator :
    (.oraImm 0x20, [0x09, 0x20], 0x20) ∈ Claims.oraForms ldaAt 0x20 0x1234 ∧
    (.oraAbs 0x1234, [0x0D, 0x34, 0x12], 0xFE) ∈ Claims.oraForms ldaAt 0x20 0x1234 ∧ 7 < 8 := by decide

theorem witness_AdcAddsWithCarry :
    (.adcImm 0x20, [0x69, 0x20], 0x20) ∈ Claims.adcForms ldaAt 0x20 0x1234 ∧
    (.adcAbs 0x1234, [0x6D, 0x34, 0x12], 0xFE) ∈ Claims.adcForms ldaAt 0x20 0x1234 := by decide

theorem witness_SbcSubtractsWithBorrow :
    (.sbcImm 0x20, [0xE9, 0x20], 0x20) ∈ Claims.sbcForms ldaAt 0x20 0x1234 ∧
    (.sbcAbs 0x1234, [0xED, 0x34, 0x12], 0xFE) ∈ Claims.sbcForms ldaAt 0x20 0x1234 := by decide

theorem witness_RolRotatesTheMemoryByte :
    (.rolZp 0x10, [0x26, 0x10], 0x0010) ∈ Claims.rolForms incAt 0x10 0xFFFF ∧
    (.rolAbx 0xFFFF, [0x3E, 0xFF, 0xFF], 0xFFFF) ∈ Claims.rolForms incAt 0x10 0xFFFF ∧ incAt.mem.wf = true ∧ 7 < 8 := by decide

theorem witness_RorRotatesTheMemoryByte :
    (.rorZp 0x10, [0x66, 0x10], 0x0010) ∈ Claims.rorForms incAt 0x10 0xFFFF ∧
    (.rorAbx 0xFFFF, [0x7E, 0xFF, 0xFF], 0xFFFF) ∈ Claims.rorForms incAt 0x10 0xFFFF ∧ incAt.mem.wf = true ∧ 7 < 8 := by decide

theorem witness_AslShiftsTheMemoryByte :
    (.aslZp 0x10, [0x06, 0x10], 0x0010) ∈ Claims.aslForms incAt 0x10 0xFFFF ∧
    (.aslAbx 0xFFFF, [0x1E, 0xFF, 0xFF], 0xFFFF) ∈ Claims.aslForms incAt 0x10 0xFFFF ∧ incAt.mem.wf = true ∧ 7 < 8 := by decide

theorem witness_LsrShiftsTheMemoryByte :
    (.lsrZp 0x10, [0x46, 0x10], 0x0010) ∈ Claims.lsrForms incAt 0x10 0xFFFF ∧
    (.lsrAbx 0xFFFF, [0x5E, 0xFF, 0xFF], 0xFFFF) ∈ Claims.lsrForms incAt 0x10 0xFFFF ∧ incAt.mem.wf = true ∧ 7 < 8 := by decide

theorem witness_RotateLeftThenRightRestores : incAt.mem.wf = true := by decide

/-- The bit numbers of `Claims.SrChanges` and of the results' bits, at both ends. -/
theorem witness_StatusOperationsTouchOnlyTheirFlags : 0 < 8 ∧ 7 < 8 := by decide

theorem witness_FlagInstructionsWriteOneBit :
    (Instr.sec, (0x38 : Word), 0, true) ∈ Claims.flagForms ∧ (Instr.clv, (0xB8 : Word), 6, false) ∈ Claims.flagForms := by decide

theorem witness_NopOnlyAdvances :
    decode (0xEA :: []) = .ok (.nop, []) ∧ decodeOpcode (unassignedAt.memRead unassignedAt.pc) = none := ⟨rfl, rfl⟩

end Sys2Proof.Machine.Tests
end

section
/-! SUPPORT. The status register bit by bit (10_state R16, R22, R26): what the three StatusFlags operations and SetZN leave in
each bit, and what every operation of the core writes in `SR`, said once as a list of bits with their values. -/

namespace Sys2Proof.Machine

/-- `clear(flags)` bit by bit. -/
theorem getLsbD_clearFlags (flags sr : Word) (k : Nat) :
    (clearFlags flags sr).getLsbD k = if flags.getLsbD k then false else sr.getLsbD k := by
  rw [clearFlags, BitVec.getLsbD_and, BitVec.getLsbD_not]
  by_cases hk : k < 8
  · cases flags.getLsbD k <;> simp [hk]
  · simp [BitVec.getLsbD_of_ge sr k (by omega)]

/-- `set(flags)` bit by bit. -/
theorem getLsbD_setFlags (flags sr : Word) (k : Nat) :
    (setFlags flags sr).getLsbD k = if flags.getLsbD k then true else sr.getLsbD k := by
  rw [setFlags, BitVec.getLsbD_or]
  cases flags.getLsbD k <;> simp

/-- `assign(flags, condition)` bit by bit. -/
theorem getLsbD_assignFlags (flags : Word) (c : Bool) (sr : Word) (k : Nat) :
    (assignFlags flags c sr).getLsbD k = if flags.getLsbD k then c else sr.getLsbD k := by
  cases c
  · exact getLsbD_clearFlags flags sr k
  · exact getLsbD_setFlags flags sr k

/-- A flag's mask has the one bit at the flag's position. -/
theorem getLsbD_flagMask (f : Flag) {k : Nat} (hk : k < 8) : (flagMask f).getLsbD k = decide (k = flagPosition f) := by
  cases f <;> revert k <;> decide

/-- Nothing changes where no bit is listed. -/
theorem Claims.SrChanges.refl (sr : Word) : Claims.SrChanges sr sr [] := fun _ _ => rfl

/-- Two lists that look up alike describe the same change. -/
theorem Claims.SrChanges.congr {before after : Word} {l l' : List (Nat × Bool)} (h : Claims.SrChanges before after l)
    (hl : ∀ k < 8, l.lookup k = l'.lookup k) : Claims.SrChanges before after l' :=
  fun k hk => hl k hk ▸ h k hk

/-- Assigning one more flag adds its bit to what changed. -/
theorem Claims.SrChanges.assign {before sr : Word} {l : List (Nat × Bool)} (h : Claims.SrChanges before sr l)
    (f : Flag) (c : Bool) : Claims.SrChanges before (assignFlags (flagMask f) c sr) ((flagPosition f, c) :: l) := by
  intro k hk
  rw [getLsbD_assignFlags, getLsbD_flagMask f hk, List.lookup_cons]
  by_cases hf : k = flagPosition f
  · simp [hf]
  · rw [beq_false_of_ne hf, decide_eq_false hf]
    exact h k hk

/-- Assigning Z and N as SetZN does adds the two bits to what changed (10_state R22). -/
theorem Claims.SrChanges.setZN {before sr : Word} {l : List (Nat × Bool)} (h : Claims.SrChanges before sr l) (v : Word) :
    Claims.SrChanges before (assignFlags 0x80 v.msb (assignFlags 0x02 (v == 0) sr)) (Claims.znBits v ++ l) := by
  have hn : v.msb = v.getLsbD 7 := BitVec.msb_eq_getLsbD_last v
  rw [Claims.znBits, ← hn]
  exact (h.assign .zero (v == 0)).assign .negative v.msb

/-- No byte is both zero and negative. -/
theorem not_zero_and_negative (v : Word) : ¬(decide (v = 0) = true ∧ v.getLsbD 7 = true) := by
  rintro ⟨hz, hn⟩
  rw [of_decide_eq_true hz] at hn
  exact absurd hn (by decide)

/-- The byte an operation hands to SetZN; none where it sets neither Z nor N (10_state R24). -/
def State.setZNByte (s : State) (v : Word) (ea : Address) : Mnemonic → Option Word
  | .lda | .ldx | .ldy => some v
  | .tax | .tay => some s.ac
  | .txa => some s.x
  | .tya => some s.y
  | .tsx => some s.sp
  | .inc => some (s.memRead ea + 1)
  | .inx => some (s.x + 1)
  | .iny => some (s.y + 1)
  | .dex => some (s.x - 1)
  | .dey => some (s.y - 1)
  | .eor => some (s.ac ^^^ v)
  | .ora => some (s.ac ||| v)
  | .adc => some (sumResult s.ac v (s.flag .carry))
  | .sbc => some (sumResult s.ac (onesComplement v) (s.flag .carry))
  | .rol => some (shiftLeftIn (s.memRead ea) (s.flag .carry))
  | .ror => some (shiftRightIn (s.memRead ea) (s.flag .carry))
  | .asl => some (shiftLeftIn (s.memRead ea) false)
  | .lsr => some (shiftRightIn (s.memRead ea) false)
  | .txs | .sta | .stx | .sty | .nop | .sec | .clc | .sed | .cld | .sei | .cli | .clv => none

/-- The bits of `SR` an operation writes beside Z and N, with their values. -/
def State.ownFlagBits (s : State) (v : Word) (ea : Address) : Mnemonic → List (Nat × Bool)
  | .adc => [(0, sumCarry s.ac v (s.flag .carry)), (6, sumOverflow s.ac v (s.flag .carry))]
  | .sbc => [(0, sumCarry s.ac (onesComplement v) (s.flag .carry)), (6, sumOverflow s.ac (onesComplement v) (s.flag .carry))]
  | .rol | .asl => [(0, bitOutLeft (s.memRead ea))]
  | .ror | .lsr => [(0, bitOutRight (s.memRead ea))]
  | .sec => [(0, true)]
  | .clc => [(0, false)]
  | .sed => [(3, true)]
  | .cld => [(3, false)]
  | .sei => [(2, true)]
  | .cli => [(2, false)]
  | .clv => [(6, false)]
  | _ => []

/-- Every bit of `SR` an operation writes, with its value. -/
def State.flagWrites (s : State) (v : Word) (ea : Address) (m : Mnemonic) : List (Nat × Bool) :=
  s.ownFlagBits v ea m ++ ((s.setZNByte v ea m).map Claims.znBits).getD []

section Perform

variable (s : State) (v : Word) (ea : Address) (m : Mnemonic)

/-- SetZN writes the bits of `Claims.znBits` and no other. -/
theorem State.setZN_srChanges : Claims.SrChanges s.sr (s.setZN v).sr (Claims.znBits v) :=
  (Claims.SrChanges.refl s.sr).setZN v

/-- Addition writes C, V, Z and N (44 R125). -/
theorem State.addWithCarry_srChanges : Claims.SrChanges s.sr (s.addWithCarry v).sr
    ((0, sumCarry s.ac v (s.flag .carry)) :: (6, sumOverflow s.ac v (s.flag .carry)) ::
      Claims.znBits (sumResult s.ac v (s.flag .carry))) := by
  have inOrder := (((Claims.SrChanges.refl s.sr).assign .carry (sumCarry s.ac v (s.flag .carry))).assign .overflow
    (sumOverflow s.ac v (s.flag .carry))).setZN (sumResult s.ac v (s.flag .carry))
  refine inOrder.congr fun k hk => ?_
  interval_cases k <;> rfl

/-- A shift or rotation writes C, Z and N (45 R135 to R138). -/
theorem State.shiftMemory_srChanges (r : Word) (out : Bool) :
    Claims.SrChanges s.sr (s.shiftMemory ea r out).sr ((0, out) :: Claims.znBits r) :=
  ((s.memWrite ea r).setZN_srChanges r).assign .carry out

theorem State.setFlag_srChanges (f : Flag) : Claims.SrChanges s.sr (s.setFlag f).sr [(flagPosition f, true)] :=
  (Claims.SrChanges.refl s.sr).assign f true

theorem State.clearFlag_srChanges (f : Flag) : Claims.SrChanges s.sr (s.clearFlag f).sr [(flagPosition f, false)] :=
  (Claims.SrChanges.refl s.sr).assign f false

/-- What an operation leaves in `SR`: the bits of `flagWrites` at their values, every other bit as before. -/
theorem State.perform_srChanges : Claims.SrChanges s.sr (s.perform v ea m).sr (s.flagWrites v ea m) := by
  cases m with
  | lda | ldx | ldy | tax | tay | txa | tya | tsx | inc | inx | iny | dex | dey | eor | ora =>
    exact State.setZN_srChanges _ _
  | sta | stx | sty | txs | nop => exact .refl s.sr
  | adc | sbc => exact s.addWithCarry_srChanges _
  | rol | ror | asl | lsr => exact s.shiftMemory_srChanges _ _ _
  | sec | sed | sei => exact s.setFlag_srChanges _
  | clc | cld | cli | clv => exact s.clearFlag_srChanges _

/-- The bits an operation writes are those its row of the flag matrix marks (10_state R27). -/
theorem State.mem_flagWrites (k : Nat) :
    k ∈ (s.flagWrites v ea m).map Prod.fst ↔ k ∈ Claims.writtenBits m := by
  cases m <;> simp [State.flagWrites, State.ownFlagBits, State.setZNByte, Claims.znBits, Claims.writtenBits] <;> omega

end Perform

end Sys2Proof.Machine
end

section
/-! SUPPORT. The state register by register (10_state R10, R14, R19, R20): which bits and registers an instruction leaves as
they were, what does not depend on `SR` or `SP`, and what holds along every run; then the obligations of 10_state. -/

namespace Sys2Proof.Machine

/-- The state an instruction answers is its operation's, advanced. -/
theorem exec_next {i : Instr} {s t : State} (h : exec i s = .next t) :
    t = (s.perform (s.operandValue i) ((s.effectiveAddress i).getD 0) i.mnemonic).advance i.width := by
  rw [exec_eq_perform] at h
  cases h
  rfl

/-! The status register. -/

/-- Every bit the flag matrix marks is a bit of `SR`. -/
theorem lt_of_mem_writtenBits {m : Mnemonic} {k : Nat} (h : k ∈ Claims.writtenBits m) : k < 8 := by
  have key : ∀ j ∈ Claims.writtenBits m, j < 8 := by cases m <;> decide
  exact key k h

section Perform

variable (s : State) (v : Word) (ea : Address) {m : Mnemonic} {k : Nat}

/-- A bit the flag matrix does not mark has no value among the writes. -/
theorem State.lookup_flagWrites_of_unwritten (hk : k ∉ Claims.writtenBits m) : (s.flagWrites v ea m).lookup k = none := by
  refine List.lookup_eq_none_iff.2 fun p hp => bne_iff_ne.2 ?_
  rintro rfl
  exact hk ((s.mem_flagWrites v ea m p.1).1 (List.mem_map_of_mem hp))

/-- A bit the flag matrix marks has a value among the writes. -/
theorem State.lookup_flagWrites_of_written (hk : k ∈ Claims.writtenBits m) :
    ∃ b, (s.flagWrites v ea m).lookup k = some b := by
  refine Option.ne_none_iff_exists'.1 fun hnone => ?_
  obtain ⟨p, hp, rfl⟩ := List.mem_map.1 ((s.mem_flagWrites v ea m k).2 hk)
  simpa using List.lookup_eq_none_iff.1 hnone p hp

/-- An operation leaves every unmarked bit of `SR` as it was (10_state R27). -/
theorem State.perform_sr_of_unwritten (hk : k < 8) (hw : k ∉ Claims.writtenBits m) :
    (s.perform v ea m).sr.getLsbD k = s.sr.getLsbD k := by
  rw [s.perform_srChanges v ea m k hk, s.lookup_flagWrites_of_unwritten v ea hw, Option.getD_none]

/-- An operation whose row marks Z hands a byte to SetZN. -/
theorem State.setZNByte_of_written (hz : 1 ∈ Claims.writtenBits m) : ∃ r, s.setZNByte v ea m = some r := by
  cases m with
  | txs | sta | stx | sty | nop | sec | clc | sed | cld | sei | cli | clv => exact absurd hz (by decide)
  | _ => exact ⟨_, rfl⟩

/-- Z and N have the values SetZN gives them, whatever else is written. -/
theorem State.lookup_flagWrites_of_setZNByte {r : Word} (hr : s.setZNByte v ea m = some r) (hk : k = 1 ∨ k = 7) :
    (s.flagWrites v ea m).lookup k = (Claims.znBits r).lookup k := by
  have own : (s.ownFlagBits v ea m).lookup k = none := by
    rcases hk with rfl | rfl <;> cases m <;> rfl
  rw [State.flagWrites, List.lookup_append, own, hr]
  rfl

/-- An operation that writes Z never leaves both Z and N at 1 (10_state R24). -/
theorem State.perform_not_zero_and_negative (hz : 1 ∈ Claims.writtenBits m) :
    ¬((s.perform v ea m).sr.getLsbD 1 = true ∧ (s.perform v ea m).sr.getLsbD 7 = true) := by
  obtain ⟨r, hr⟩ := s.setZNByte_of_written v ea hz
  rw [s.perform_srChanges v ea m 1 (by decide), s.perform_srChanges v ea m 7 (by decide),
    s.lookup_flagWrites_of_setZNByte v ea hr (.inl rfl), s.lookup_flagWrites_of_setZNByte v ea hr (.inr rfl)]
  exact not_zero_and_negative r

end Perform

/-- An instruction leaves every unmarked bit of `SR` as it was. -/
theorem exec_sr_of_unwritten {i : Instr} {s t : State} (h : exec i s = .next t) {k : Nat} (hk : k < 8)
    (hw : k ∉ Claims.writtenBits i.mnemonic) : t.sr.getLsbD k = s.sr.getLsbD k := by
  rw [exec_next h, State.advance_sr, State.perform_sr_of_unwritten _ _ _ hk hw]

/-- No row of the flag matrix marks bit 5 (10_state R19). -/
theorem ignored_not_mem_writtenBits (m : Mnemonic) : 5 ∉ Claims.writtenBits m := by cases m <;> decide

/-- No row of the flag matrix marks bit 4 (10_state R20). -/
theorem brk_not_mem_writtenBits (m : Mnemonic) : 4 ∉ Claims.writtenBits m := by cases m <;> decide

/-! Construction and the states reachable from it. -/

/-- What a construction that answers a state gives. -/
theorem construct_next {init : Config.Init} {t : State} (h : State.construct init = .next t) :
    t = ⟨init.pc, init.ac, init.x, init.y, init.sp, init.sr ||| 0x20, Memory.ofImage init.mem⟩ := by
  unfold State.construct at h
  split at h
  · cases h
  · exact (Host.Outcome.next.inj h).symm

/-- A constructed `SR` is the supplied one with bit 5 forced to 1 (10_state R19, 70 R196). -/
theorem construct_sr {init : Config.Init} {t : State} (h : State.construct init = .next t) (k : Nat) :
    t.sr.getLsbD k = (init.sr.getLsbD k || (0x20 : Word).getLsbD k) := by
  rw [construct_next h, BitVec.getLsbD_or]

/-- A bit of `SR` that no instruction writes keeps its construction value along every run. -/
theorem Reachable.sr_of_unwritten {init : Config.Init} {s : State} (h : Reachable init s) {k : Nat} (hk : k < 8)
    (hw : ∀ m, k ∉ Claims.writtenBits m) : s.sr.getLsbD k = (init.sr.getLsbD k || (0x20 : Word).getLsbD k) := by
  induction h with
  | constructed s hs => exact construct_sr hs k
  | stepped s t _ hstep ih =>
    obtain ⟨i, -, hexec⟩ := step_next s hstep
    rw [exec_sr_of_unwritten hexec hk (hw _), ih]

/-- Every instruction keeps the memory list canonical. -/
theorem exec_wf {i : Instr} {s t : State} (hs : s.mem.wf = true) (h : exec i s = .next t) : t.mem.wf = true := by
  obtain ⟨t', ht', hmem⟩ := exec_mem s i
  obtain rfl : t' = t := Host.Outcome.next.inj (ht'.symm.trans h)
  rcases hmem with ⟨-, hmem⟩ | ⟨a, b, -, -, hmem⟩
  · rw [hmem, hs]
  · rw [hmem, Memory.wf_write hs b a.isLt]

/-! What does not depend on `SR` or on `SP`. -/

section Independence

variable (s : State) (i : Instr) (v w : Word) (ea : Address) {m : Mnemonic}

@[simp] theorem State.effectiveAddress_setSr : (s.setSr w).effectiveAddress i = s.effectiveAddress i := rfl
@[simp] theorem State.operandValue_setSr : (s.setSr w).operandValue i = s.operandValue i := rfl
@[simp] theorem State.effectiveAddress_setSp : (s.setSp w).effectiveAddress i = s.effectiveAddress i := rfl
@[simp] theorem State.operandValue_setSp : (s.setSp w).operandValue i = s.operandValue i := rfl

/-- With the same Carry bit, the Carry reads the same. -/
theorem State.flag_carry_setSr (h : w.getLsbD 0 = s.sr.getLsbD 0) : (s.setSr w).flag .carry = s.flag .carry := by
  rw [State.flag_eq, State.flag_eq]
  exact h

/-- The bits an operation writes do not depend on `SR`, but for the Carry of the four that read it. -/
theorem State.flagWrites_setSr (h : m ∈ [.adc, .sbc, .rol, .ror] → w.getLsbD 0 = s.sr.getLsbD 0) :
    (s.setSr w).flagWrites v ea m = s.flagWrites v ea m := by
  cases m with
  | adc | sbc | rol | ror =>
    simp only [State.flagWrites, State.ownFlagBits, State.setZNByte, s.flag_carry_setSr w (h (by decide))]
    rfl
  | _ => rfl

/-- What an operation does to the registers and to memory does not depend on `SR`, but for the Carry of the four that
read it. -/
theorem State.perform_setSr (h : m ∈ [.adc, .sbc, .rol, .ror] → w.getLsbD 0 = s.sr.getLsbD 0) :
    (s.setSr w).perform v ea m = (s.perform v ea m).setSr ((s.setSr w).perform v ea m).sr := by
  cases m with
  | adc | sbc =>
    simp only [State.perform, State.adc, State.sbc, State.addWithCarry, s.flag_carry_setSr w (h (by decide))]
    rfl
  | rol | ror =>
    simp only [State.perform, State.rol, State.ror, s.flag_carry_setSr w (h (by decide))]
    rfl
  | _ => rfl

/-- No operation but `tsx` depends on `SP`, and only `txs` writes it (10_state R14). -/
theorem State.perform_setSp (h : m ≠ .tsx) :
    (s.setSp w).perform v ea m = (s.perform v ea m).setSp (if m = .txs then s.x else w) := by
  cases m with
  | tsx => exact absurd rfl h
  | _ => rfl

end Independence

/-- `tsx` and `txs` have one form each. -/
theorem mnemonic_eq_tsx_iff (i : Instr) : i.mnemonic = .tsx ↔ i = .tsx := by
  cases i <;> simp [Instr.mnemonic, Instr.form]

theorem mnemonic_eq_txs_iff (i : Instr) : i.mnemonic = .txs ↔ i = .txs := by
  cases i <;> simp [Instr.mnemonic, Instr.form]

/-! The obligations. -/

/-- Settles O16: a write keeps the list canonical, and no instruction writes bit 5. -/
theorem stepKeepsTheInvariant : Obligations.StepKeepsTheInvariant := by
  intro s t ⟨hwf, hbit⟩ hstep
  obtain ⟨i, -, hexec⟩ := step_next s hstep
  exact ⟨exec_wf hwf hexec, by rw [exec_sr_of_unwritten hexec (by decide) (ignored_not_mem_writtenBits _), hbit]⟩

/-- Settles O17: construction forces bit 5, and no row of the flag matrix marks it. -/
theorem ignoredBitIsAlwaysOne : Obligations.IgnoredBitIsAlwaysOne := by
  refine ⟨fun init t h => ?_, fun i s t h => ?_, fun init s h => ?_⟩
  · rw [construct_sr h]
    exact Bool.or_true _
  · exact exec_sr_of_unwritten h (by decide) (ignored_not_mem_writtenBits _)
  · rw [h.sr_of_unwritten (by decide) ignored_not_mem_writtenBits]
    exact Bool.or_true _

/-- Settles O18: construction leaves bit 4 as supplied, and no row of the flag matrix marks it. -/
theorem breakBitKeepsItsConstructionValue : Obligations.BreakBitKeepsItsConstructionValue := by
  refine ⟨fun i s t h => ?_, fun init s h => ?_, rfl⟩
  · exact exec_sr_of_unwritten h (by decide) (brk_not_mem_writtenBits _)
  · rw [h.sr_of_unwritten (by decide) brk_not_mem_writtenBits]
    exact Bool.or_false _

/-- Settles O14: the memory of an image is canonical, and construction forces bit 5. -/
theorem constructedStateMeetsTheInvariant : Obligations.ConstructedStateMeetsTheInvariant := by
  intro init t h
  refine ⟨?_, ignoredBitIsAlwaysOne.1 init t h⟩
  rw [construct_next h]
  exact Memory.ofImage_wf init.mem

/-- Settles O31, from what an operation leaves in `SR`. -/
theorem flagDisciplineMatrix : Obligations.FlagDisciplineMatrix := fun i s =>
  ⟨_, exec_eq_perform i s, fun _ hk hw => State.perform_sr_of_unwritten s _ _ hk hw,
    State.perform_not_zero_and_negative s _ _⟩

/-- Settles O32, from what an operation leaves in each register. -/
theorem registersHaveOnlyTheirWriters : Obligations.RegistersHaveOnlyTheirWriters := by
  intro i s
  refine ⟨_, exec_eq_perform i s, fun h => ?_, fun h => ?_, fun h => ?_, fun h => ?_⟩
  · rw [State.advance_ac, State.perform_ac]
    split <;> simp_all
  · rw [State.advance_x, State.perform_x]
    split <;> simp_all
  · rw [State.advance_y, State.perform_y]
    split <;> simp_all
  · rw [State.advance_sp, State.perform_sp]
    split <;> simp_all

/-- Settles O33: the operand, the address, the operation and the written bits are the same under the other `SR`. -/
theorem noFlagButCarryIsRead : Obligations.NoFlagButCarryIsRead := by
  intro i s sr' hcarry
  have hother := exec_eq_perform i (s.setSr sr')
  rw [State.operandValue_setSr, State.effectiveAddress_setSr] at hother
  refine ⟨_, _, exec_eq_perform i s, hother, ?_, fun k hk => ?_⟩
  · rw [State.perform_setSr s _ _ _ hcarry]
    rfl
  · have hlt := lt_of_mem_writtenBits hk
    obtain ⟨b, hb⟩ := s.lookup_flagWrites_of_written (s.operandValue i) ((s.effectiveAddress i).getD 0) hk
    rw [State.advance_sr, State.advance_sr, State.perform_srChanges _ _ _ _ k hlt, State.perform_srChanges _ _ _ _ k hlt,
      State.flagWrites_setSr s _ _ _ hcarry, hb]
    rfl

/-- Settles O34: no operand, address or operation but `tsx` depends on `SP`. -/
theorem stackPointerIsStorageOnly : Obligations.StackPointerIsStorageOnly := by
  refine fun i s v => ⟨fun hi => ⟨_, exec_eq_perform i s, ?_⟩, _, rfl, rfl, rfl⟩
  have hother := exec_eq_perform i (s.setSp v)
  rw [State.operandValue_setSp, State.effectiveAddress_setSp,
    State.perform_setSp s _ _ _ (mt (mnemonic_eq_tsx_iff i).1 hi)] at hother
  simp only [mnemonic_eq_txs_iff] at hother
  exact hother

/-- Settles O9: SetZN changes `SR` alone, in the bits of `Claims.znBits`. -/
theorem setZNWritesZeroAndNegativeOnly : Obligations.SetZNWritesZeroAndNegativeOnly := by
  intro s v
  have changes := s.setZN_srChanges v
  refine ⟨_, changes, rfl, ?_⟩
  rw [changes 1 (by decide), changes 7 (by decide)]
  exact not_zero_and_negative v

/-- Settles O10. -/
theorem statusOperationsTouchOnlyTheirFlags : Obligations.StatusOperationsTouchOnlyTheirFlags := fun flags sr c k _ =>
  ⟨getLsbD_clearFlags flags sr k, getLsbD_setFlags flags sr k, getLsbD_assignFlags flags c sr k⟩

end Sys2Proof.Machine
end

section
/-! SUPPORT. The decoded instruction beside the row that `specDecode` finds and the operand that `Resolve(mode)` reads again
at `pc` (30 R53, 40 R72; log entry 8): the two decoders name the same mnemonic and mode, and the two addresses are one. -/

namespace Sys2Proof.Machine

/-- Filling the shape changes no mnemonic and no mode, and the operand of the form is the one filled in. -/
def KeepsForm : Shape → Prop
  | .implied i => i.form.operand = .none
  | .byteOperand f => ∀ d, (f d).form = ⟨(f 0).mnemonic, (f 0).mode, .byte d⟩
  | .wordOperand f => ∀ a, (f a).form = ⟨(f 0).mnemonic, (f 0).mode, .word a⟩

/-- Every row of the opcode table keeps its form (30 R56). -/
theorem opcodeTable_keepsForm : ∀ row ∈ opcodeTable, KeepsForm row.2 := by
  simp only [opcodeTable, opcodeRows0, opcodeRows1, opcodeRows2, opcodeRows3, opcodeRows4, opcodeRows5, opcodeRows6,
    opcodeRows7, opcodeRows8, opcodeRows9, opcodeRowsA, opcodeRowsB, opcodeRowsC, opcodeRowsD, opcodeRowsE, opcodeRowsF,
    List.forall_mem_append, List.forall_mem_cons, List.not_mem_nil, false_implies, implies_true, and_true, KeepsForm]
  and_intros <;> intros <;> rfl

/-- The operand of a given number of bytes that lies behind the opcode (30 R52). -/
def State.operandAtPc (s : State) : Nat → Operand
  | 0 => .none
  | 1 => .byte s.operandByte
  | _ => .word s.operandWord

/-- The operand of every instruction has the bytes of its mode. -/
theorem operand_bytes (i : Instr) : i.form.operand.bytes = i.mode.operandBytes := by
  obtain ⟨-, hfits⟩ := Bool.and_eq_true_iff.1 (Laws.InstrWellFormed.all i).1
  exact beq_iff_eq.1 hfits

/-- The mnemonic of every instruction has an opcode in its mode. -/
theorem mode_mem_modes (i : Instr) : i.mode ∈ i.mnemonic.modes :=
  List.contains_iff_mem.1 (Bool.and_eq_true_iff.1 (Laws.InstrWellFormed.all i).1).1

section Decoded

variable {s : State} {i : Instr} (h : decode s.fetchBytes = .ok (i, []))
include h

/-- What a fetched instruction is: its mnemonic and mode are those of its row, its operand is the one behind the opcode. -/
theorem form_of_decode : ∃ shape, decodeOpcode (s.memRead s.pc) = some shape ∧
    i.form = ⟨(sampleInstr shape).mnemonic, (sampleInstr shape).mode, s.operandAtPc shape.operandBytes⟩ := by
  rcases decode_fetchBytes s with ⟨shape, j, hop, hfill, hj⟩ | ⟨-, hn⟩
  · obtain rfl : j = i := by simpa using hj.symm.trans h
    have keeps := opcodeTable_keepsForm _ (mem_opcodeTable_of_decodeOpcode hop)
    refine ⟨shape, hop, ?_⟩
    cases shape with
    | implied k =>
      obtain rfl : k = j := by simpa using congrArg Prod.fst (Option.some.inj hfill)
      show k.form = ⟨k.form.mnemonic, k.form.mode, .none⟩
      rw [← show k.form.operand = .none from keeps]
    | byteOperand f =>
      obtain rfl : f s.operandByte = j := congrArg Prod.fst (Option.some.inj hfill)
      exact keeps _
    | wordOperand f =>
      obtain rfl : f (joinBytes (s.memRead (s.pc + 1 + 1)) (s.memRead (s.pc + 1))) = j :=
        congrArg Prod.fst (Option.some.inj hfill)
      exact keeps _
  · cases hn.symm.trans h

/-- The spec's Decode finds the row of the decoded instruction. -/
theorem specDecode_of_decode : specDecode (s.memRead s.pc) = some ⟨i.mnemonic, i.mode, i.width⟩ := by
  obtain ⟨shape, hop, hform⟩ := form_of_decode h
  simp only [specDecode, hop, Instr.width, Instr.mnemonic, Instr.mode, hform]

/-- The operand of a fetched instruction is the one of its mode's length behind the opcode. -/
theorem operand_of_decode : i.form.operand = s.operandAtPc i.mode.operandBytes := by
  obtain ⟨shape, -, hform⟩ := form_of_decode h
  have hoperand : i.form.operand = s.operandAtPc shape.operandBytes := congrArg Form.operand hform
  rw [← operand_bytes, hoperand]
  cases shape <;> rfl

/-- `Resolve(mode)` gives the effective address of the decoded instruction (log entry 8). -/
theorem resolve_of_decode : s.resolve i.mode = s.effectiveAddress i := by
  rw [State.effectiveAddress, operand_of_decode h]
  cases i.mode <;> rfl

end Decoded

end Sys2Proof.Machine
end

section
/-! SUPPORT. Memory as an instruction and its access history leave it (20_memory R31 to R37): the reads of a step and the one
byte it may store; then the obligations of 20_memory. -/

namespace Sys2Proof.Machine

variable (s : State) (i : Instr) (m : Mnemonic) (mode : Mode) (ea : Address)

/-- The addresses read before the data, in order: operand bytes, then pointer bytes (20 R37, phases 2 and 3). -/
def State.operandAndPointerReads : Mode → List Address
  | .indexedIndirectX => [s.pc + 1, zext16 (s.operandByte + s.x), zext16 (s.operandByte + s.x) + 1]
  | .indirectIndexedY => [s.pc + 1, zext16 s.operandByte, zext16 s.operandByte + 1]
  | .zeroPage | .zeroPageIndexedX => [s.pc + 1]
  | .absoluteIndexedY | .absolute | .absoluteIndexedX => [s.pc + 1, s.pc + 2]
  | .immediate | .implied => []

/-- Phases 2 and 3 are byte reads of the state. -/
theorem State.operandAccesses_append_pointerAccesses :
    s.operandAccesses mode ++ s.pointerAccesses mode = (s.operandAndPointerReads mode).map s.readAccess := by
  cases mode <;> rfl

/-- The address of the data read, for the mnemonics that read data (20 R37, phase 4). -/
def State.dataReads : List Address := if readsData i.mnemonic then (s.effectiveAddress i).toList else []

/-- The byte an instruction stores, with its address (20 R37, phase 5). -/
def State.dataWrite : Option (Address × Word) :=
  (s.effectiveAddress i).bind fun ea => (s.storedByte ea i.mnemonic).map (ea, ·)

/-- A mnemonic with a form that has no effective address writes no data. -/
theorem writesData_of_effectiveAddress_eq_none {s : State} {i : Instr} (h : s.effectiveAddress i = none) :
    writesData i.mnemonic = false := by
  refine Bool.eq_false_iff.2 fun hw => ?_
  cases h.symm.trans (s.effectiveAddress_of_writesData hw)

/-- A mnemonic that writes no data stores no byte. -/
theorem State.storedByte_eq_none {m : Mnemonic} (h : writesData m = false) : s.storedByte ea m = none :=
  Option.isNone_iff_eq_none.1 (Option.isSome_eq_false_iff.1 ((s.storedByte_isSome ea m).trans h))

/-- An instruction stores a byte exactly when its mnemonic writes data. -/
theorem State.dataWrite_isSome : (s.dataWrite i).isSome = writesData i.mnemonic := by
  cases h : s.effectiveAddress i with
  | none => rw [dataWrite, h, writesData_of_effectiveAddress_eq_none h, Option.bind_none, Option.isSome_none]
  | some ea => rw [dataWrite, h, Option.bind_some, Option.isSome_map, storedByte_isSome]

/-- Memory after an instruction is memory before it with the data write applied. -/
theorem exec_mem_eq_apply_dataWrite {s t : State} {i : Instr} (h : exec i s = .next t) :
    t.mem = ((s.dataWrite i).toList.map fun w => Access.write w.1 w.2).foldl Access.apply s.mem := by
  rw [exec_next h, State.advance_mem, State.perform_mem, State.dataWrite]
  cases hea : s.effectiveAddress i with
  | none => rw [s.storedByte_eq_none _ (writesData_of_effectiveAddress_eq_none hea)]; rfl
  | some ea => cases hb : s.storedByte ea i.mnemonic <;> simp [hb, Access.apply]

/-- A list of reads changes nothing. -/
theorem foldl_apply_reads (reads : List Address) (mem : Memory) :
    (reads.map s.readAccess).foldl Access.apply mem = mem := by
  induction reads with
  | nil => rfl
  | cons _ _ ih => exact ih

/-- The accesses of a step: the opcode and the other reads, then the data write (20 R37). -/
theorem stepAccesses_of_decode {s : State} {i : Instr} (h : decode s.fetchBytes = .ok (i, [])) :
    s.stepAccesses = s.readAccess s.pc :: (s.operandAndPointerReads i.mode ++ s.dataReads i).map s.readAccess ++
      (s.dataWrite i).toList.map fun w => .write w.1 w.2 := by
  simp only [State.stepAccesses, specDecode_of_decode h, resolve_of_decode h, State.operandAccesses_append_pointerAccesses,
    State.dataReads, State.dataWrite]
  cases s.effectiveAddress i with
  | none => simp
  | some ea =>
    cases hb : s.storedByte ea i.mnemonic <;> cases hr : readsData i.mnemonic <;> simp [State.dataAccesses, hb, hr]

/-- A mnemonic with an indirect mode reads or writes data, not both (30 R57). -/
theorem readsData_add_writesData_le_of_indirect : ∀ mode ∈ m.modes, mode ∈ [Mode.indexedIndirectX, .indirectIndexedY] →
    (readsData m).toNat + (writesData m).toNat ≤ 1 := by
  cases m <;> decide

/-- Only the indirect modes read more than two bytes before the data. -/
theorem State.length_operandAndPointerReads_le :
    (s.operandAndPointerReads mode).length ≤ if mode ∈ [.indexedIndirectX, .indirectIndexedY] then 3 else 2 := by
  cases mode <;> simp [operandAndPointerReads]

theorem State.length_dataReads_le : (s.dataReads i).length ≤ (readsData i.mnemonic).toNat := by
  rw [dataReads]
  cases readsData i.mnemonic <;> cases s.effectiveAddress i <;> simp

theorem State.length_dataWrite : (s.dataWrite i).toList.length = (writesData i.mnemonic).toNat := by
  rw [← s.dataWrite_isSome i]
  cases s.dataWrite i <;> rfl

/-- A step makes at most five accesses (20 R37). -/
theorem length_stepAccesses_le {s : State} {i : Instr} (h : decode s.fetchBytes = .ok (i, [])) :
    s.stepAccesses.length ≤ 5 := by
  have pre := s.length_operandAndPointerReads_le i.mode
  have data := s.length_dataReads_le i
  rw [stepAccesses_of_decode h]
  simp only [List.length_append, List.length_cons, List.length_map, State.length_dataWrite]
  split at pre
  case isTrue hindirect =>
    have one := readsData_add_writesData_le_of_indirect i.mnemonic i.mode (mode_mem_modes i) hindirect
    omega
  case isFalse =>
    have reads := Bool.toNat_le (readsData i.mnemonic)
    have writes := Bool.toNat_le (writesData i.mnemonic)
    omega

/-! The obligations. -/

/-- Settles O25: the decoded instruction's accesses are its reads and its data write, and that write is what it leaves in
memory. -/
theorem accessesExplainTheMemory : Obligations.AccessesExplainTheMemory := by
  intro s t hstep
  obtain ⟨i, hdecode, hexec⟩ := step_next s hstep
  have accesses := stepAccesses_of_decode hdecode
  have written := s.length_dataWrite i
  refine ⟨_, _, accesses, ?_, length_stepAccesses_le hdecode, ?_, fun j hj => ?_⟩
  · rw [written]
    exact Bool.toNat_le _
  · rw [accesses, List.foldl_append, ← List.map_cons, foldl_apply_reads]
    exact exec_mem_eq_apply_dataWrite hexec
  · obtain rfl : i = j := by simpa using hdecode.symm.trans hj
    rw [← List.length_pos_iff, written]
    cases writesData i.mnemonic <;> decide

/-- Settles O26: an instruction leaves memory as it was, or stores the byte of its rule at its effective address. -/
theorem onlyTheEffectiveAddressIsWritten : Obligations.OnlyTheEffectiveAddressIsWritten := by
  intro i s hwf
  obtain ⟨t, hexec, ⟨hnone, hmem⟩ | ⟨a, b, ha, hb, hmem⟩⟩ := exec_mem s i
  · refine ⟨t, hexec, fun c _ => ?_, fun ea hea => ?_⟩
    · rw [State.memRead, hmem, State.memRead]
    · cases hnone.symm.trans hea
  · have reads (c : Address) : t.memRead c = if c = a then b else s.memRead c := by
      rw [← State.memRead_memWrite hwf, State.memRead, hmem, State.memRead, State.memWrite_mem]
    refine ⟨t, hexec, fun c hc => ?_, fun ea hea => ?_⟩
    · rw [reads, if_neg (by rintro rfl; exact hc ha)]
    · obtain rfl : a = ea := Option.some.inj (ha.symm.trans hea)
      rw [reads, if_pos rfl, hb]

/-- Settles O27: the next fetch reads memory, where the stored byte now lies (O26). -/
theorem nextFetchSeesTheStore : Obligations.NextFetchSeesTheStore := by
  intro i s t ea hwf hexec hea
  obtain ⟨t', hexec', -, hstored⟩ := onlyTheEffectiveAddressIsWritten i s hwf
  obtain rfl : t' = t := Host.Outcome.next.inj (hexec'.symm.trans hexec)
  constructor <;> rintro rfl <;> exact (hstored _ hea).symm

/-- Settles O12, by the laws of memory. -/
theorem memWriteChangesOneByte : Obligations.MemWriteChangesOneByte := fun _ a v hwf =>
  ⟨State.memWrite_wf hwf a v, fun b => State.memRead_memWrite hwf a b v, rfl⟩

/-- Settles O11: a joined pair as a number, and the next address modulo 65536. -/
theorem wordReadIsLittleEndianAndWraps : Obligations.WordReadIsLittleEndianAndWraps := by
  refine fun s => ⟨fun a => ?_, rfl, rfl⟩
  have next : (a + 1).toNat = (a.toNat + 1) % 65536 := BitVec.toNat_add a 1
  rw [State.memRead16, toNat_joinBytes, State.memRead, State.memRead, next]

end Sys2Proof.Machine
end

section
/-! SUPPORT. Encoding beside decoding (30_encoding): an instruction is an opcode byte and the bytes of its operand, and the row
of that byte gives the instruction back from the operand; the rows by mnemonic and mode; the unassigned bytes; then the
obligations of 30_encoding. -/

namespace Sys2Proof

open Machine

/-- The instruction a shape makes of an operand; none where the operand is not of the shape's kind. -/
def Shape.instr : Shape → Operand → Option Instr
  | .implied i, .none => some i
  | .byteOperand f, .byte d => some (f d)
  | .wordOperand f, .word a => some (f a)
  | _, _ => none

/-- Different operands have different bytes: no operand bit is lost (30 R51, R52). -/
theorem Operand.toBytes_injective : Function.Injective Operand.toBytes := by
  intro o o' h
  cases o <;> cases o' <;> simp_all [Operand.toBytes]
  case word.word a b => rw [← joinBytes_high_low a, ← joinBytes_high_low b, h.1, h.2]

/-- Filling a shape takes exactly the bytes of an operand of its kind from the front. -/
theorem Shape.fill_eq_some_iff {shape : Shape} {bytes rest : List Word} {i : Instr} :
    shape.fill bytes = some (i, rest) ↔ ∃ o, shape.instr o = some i ∧ bytes = o.toBytes ++ rest := by
  constructor
  · intro h
    match shape, bytes, h with
    | .implied _, _, rfl => exact ⟨.none, rfl, rfl⟩
    | .byteOperand _, d :: _, rfl => exact ⟨.byte d, rfl, rfl⟩
    | .wordOperand _, l :: h :: _, rfl => exact ⟨.word (joinBytes h l), rfl, by simp [Operand.toBytes]⟩
  · rintro ⟨o, ho, rfl⟩
    match shape, o, ho with
    | .implied _, .none, rfl => rfl
    | .byteOperand _, .byte _, rfl => rfl
    | .wordOperand _, .word a, rfl => simp [Shape.fill, Operand.toBytes]

/-- A shape makes an instruction of every operand of its length. -/
theorem Shape.exists_instr {shape : Shape} {o : Operand} (h : o.bytes = shape.operandBytes) :
    ∃ i, shape.instr o = some i := by
  match shape, o, h with
  | .implied i, .none, _ => exact ⟨i, rfl⟩
  | .byteOperand f, .byte d, _ => exact ⟨f d, rfl⟩
  | .wordOperand f, .word a, _ => exact ⟨f a, rfl⟩

/-! The rows of the opcode table and the encodings. -/

/-- Every instruction is encoded as an opcode byte and its operand, and the row of that byte makes the instruction of that
operand: the maps of 30 R57 and R56 agree. -/
theorem exists_row (i : Instr) : ∃ op shape, encode i = op :: i.form.operand.toBytes ∧
    decodeOpcode op = some shape ∧ shape.instr i.form.operand = some i := by
  cases i <;> exact ⟨_, _, rfl, rfl, rfl⟩

/-- The instructions of a shape are encoded with the opcode byte `op`. -/
def EncodesWith (op : Word) : Shape → Prop
  | .implied i => encode i = [op]
  | .byteOperand f => ∀ d, encode (f d) = [op, d]
  | .wordOperand f => ∀ a, encode (f a) = [op, lowByte a, highByte a]

/-- The instructions of every row are encoded with the byte of the row. -/
theorem opcodeTable_encodesWith : ∀ row ∈ opcodeTable, EncodesWith row.1 row.2 := by
  simp only [opcodeTable, opcodeRows0, opcodeRows1, opcodeRows2, opcodeRows3, opcodeRows4, opcodeRows5, opcodeRows6,
    opcodeRows7, opcodeRows8, opcodeRows9, opcodeRowsA, opcodeRowsB, opcodeRowsC, opcodeRowsD, opcodeRowsE, opcodeRowsF,
    List.forall_mem_append, List.forall_mem_cons, List.not_mem_nil, false_implies, implies_true, and_true, EncodesWith]
  and_intros <;> intros <;> rfl

/-- The mnemonic and the mode of a row. -/
def rowName (row : OpcodeRow) : Mnemonic × Mode := ((sampleInstr row.2).mnemonic, (sampleInstr row.2).mode)

/-- No mnemonic has two rows in one mode (30 R57). -/
theorem rowNames_nodup : (opcodeTable.map rowName).Nodup := by decide

/-- Every combination of mnemonic and mode that is not `-` in 30 R57 has a row. -/
theorem mem_rowNames (m : Mnemonic) : ∀ mode ∈ m.modes, (m, mode) ∈ opcodeTable.map rowName := by
  cases m <;> decide

section Row

variable {op : Word} {shape : Shape} {o : Operand} {i : Instr}

/-- An instruction of a row is encoded as the byte of the row and the operand. -/
theorem encode_of_row (hrow : (op, shape) ∈ opcodeTable) (h : shape.instr o = some i) : encode i = op :: o.toBytes := by
  have encodes := opcodeTable_encodesWith _ hrow
  match shape, o, h with
  | .implied _, .none, rfl => exact encodes
  | .byteOperand _, .byte d, rfl => exact encodes d
  | .wordOperand _, .word a, rfl => exact encodes a

/-- An instruction of a row has the mnemonic and the mode of the row, and the operand it was made of. -/
theorem form_of_row (hrow : (op, shape) ∈ opcodeTable) (h : shape.instr o = some i) :
    rowName (op, shape) = (i.mnemonic, i.mode) ∧ i.form.operand = o := by
  have keeps := opcodeTable_keepsForm _ hrow
  match shape, o, h with
  | .implied _, .none, rfl => exact ⟨rfl, keeps⟩
  | .byteOperand _, .byte d, rfl => simp [Instr.mnemonic, Instr.mode, keeps d, rowName, sampleInstr]
  | .wordOperand _, .word a, rfl => simp [Instr.mnemonic, Instr.mode, keeps a, rowName, sampleInstr]

end Row

/-! Decoding and encoding are inverse. -/

/-- The bytes of an instruction decode to it, whatever follows them. -/
@[simp] theorem decode_encode (i : Instr) (rest : List Word) : decode (encode i ++ rest) = .ok (i, rest) := by
  obtain ⟨op, shape, hencode, hop, hi⟩ := exists_row i
  have hfill : shape.fill (i.form.operand.toBytes ++ rest) = some (i, rest) := Shape.fill_eq_some_iff.2 ⟨_, hi, rfl⟩
  simp only [hencode, List.cons_append, decode, hop, hfill]

/-- A list that decodes starts with an opcode byte whose shape the bytes behind it fill. -/
theorem decode_eq_ok {bytes rest : List Word} {i : Instr} (h : decode bytes = .ok (i, rest)) :
    ∃ op operand shape, bytes = op :: operand ∧ decodeOpcode op = some shape ∧ shape.fill operand = some (i, rest) := by
  unfold decode at h
  split at h
  case h_1 => cases h
  case h_2 op operand =>
    split at h
    case h_1 => cases h
    case h_2 shape hop =>
      split at h
      case h_1 => cases h
      case h_2 result hfill => exact ⟨op, operand, shape, rfl, hop, Except.ok.inj h ▸ hfill⟩

/-- What decodes is the encoding of what it decodes to, followed by the rest. -/
theorem eq_encode_append_of_decode {bytes rest : List Word} {i : Instr} (h : decode bytes = .ok (i, rest)) :
    bytes = encode i ++ rest := by
  obtain ⟨op, operand, shape, rfl, hop, hfill⟩ := decode_eq_ok h
  obtain ⟨o, hi, rfl⟩ := Shape.fill_eq_some_iff.1 hfill
  rw [encode_of_row (mem_opcodeTable_of_decodeOpcode hop) hi, List.cons_append]

/-- The length of an encoding, by its opcode byte alone (30 R50). -/
theorem length_encode (i : Instr) : (encode i).length = 1 + operandCount ((encode i).headD 0) := by
  obtain ⟨-, hlength, hcount⟩ := Laws.InstrWellFormed.all i
  rw [hlength, hcount]
  rfl

/-! Forms and the instructions they assemble to. -/

/-- An instruction is its form: no two instructions have one form. -/
theorem Instr.form_injective : Function.Injective Instr.form := by
  intro i j h
  obtain ⟨op, shape, -, hop, hi⟩ := exists_row i
  obtain ⟨op', shape', -, hop', hj⟩ := exists_row j
  have hrow := mem_opcodeTable_of_decodeOpcode hop
  have hrow' := mem_opcodeTable_of_decodeOpcode hop'
  have hname : rowName (op, shape) = rowName (op', shape') := by
    rw [(form_of_row hrow hi).1, (form_of_row hrow' hj).1, Instr.mnemonic, Instr.mode, h]
    rfl
  cases List.inj_on_of_nodup_map rowNames_nodup hrow hrow' hname
  exact Option.some.inj (hi.symm.trans (h ▸ hj))

/-- What a row gives a form: the instruction of the form's operand, where it has the form's mnemonic and mode. -/
theorem rowInstr_eq_some_iff {f : Form} {i : Instr} {row : OpcodeRow} :
    rowInstr f row = some i ↔ row.2.instr f.operand = some i ∧ i.mnemonic = f.mnemonic ∧ i.mode = f.mode := by
  have hfill : row.2.fill f.operand.toBytes = some (i, []) ↔ row.2.instr f.operand = some i := by
    rw [Shape.fill_eq_some_iff]
    constructor
    · rintro ⟨o, ho, hbytes⟩
      rwa [Operand.toBytes_injective (hbytes.trans (List.append_nil _))]
    · exact fun h => ⟨_, h, (List.append_nil _).symm⟩
  rw [← hfill, rowInstr]
  constructor
  · intro h
    split at h
    case h_1 j hj =>
      split at h
      case isTrue hname => cases h; exact ⟨hj, hname⟩
      case isFalse => cases h
    case h_2 => cases h
  · rintro ⟨hi, hname⟩
    simp only [hi, hname, and_self, if_true]

/-- An instruction's form is a form with its mnemonic, its mode and its operand. -/
theorem form_eq_of_fields {i : Instr} {f : Form} (hmnemonic : i.mnemonic = f.mnemonic) (hmode : i.mode = f.mode)
    (hoperand : i.form.operand = f.operand) : i.form = f := by
  cases f
  cases hmnemonic
  cases hmode
  cases hoperand
  rfl

/-- The instruction of a form has that form. -/
theorem form_of_toInstr {f : Form} {i : Instr} (h : f.toInstr = some i) : i.form = f := by
  obtain ⟨⟨op, shape⟩, hrow, hi⟩ := List.exists_of_findSome?_eq_some h
  obtain ⟨hinstr, hmnemonic, hmode⟩ := rowInstr_eq_some_iff.1 hi
  exact form_eq_of_fields hmnemonic hmode (form_of_row hrow hinstr).2

/-- The form of an instruction gives the instruction back. -/
@[simp] theorem toInstr_form (i : Instr) : i.form.toInstr = some i := by
  obtain ⟨op, shape, -, hop, hi⟩ := exists_row i
  have found : i.form.toInstr.isSome := List.findSome?_isSome_iff.2
    ⟨(op, shape), mem_opcodeTable_of_decodeOpcode hop, by rw [rowInstr_eq_some_iff.2 ⟨hi, rfl, rfl⟩]; rfl⟩
  obtain ⟨j, hj⟩ := Option.isSome_iff_exists.1 found
  rw [hj, Instr.form_injective (form_of_toInstr hj)]

/-- A row awaits the operand bytes of its mode. -/
theorem operandBytes_of_row : ∀ row ∈ opcodeTable, row.2.operandBytes = (rowName row).2.operandBytes := by decide

/-- Every well-formed form is an instruction's. -/
theorem exists_form_eq_of_fields {f : Form} (h : f.wellFormed = true) : ∃ i : Instr, i.form = f := by
  obtain ⟨hmode, hfits⟩ := Bool.and_eq_true_iff.1 h
  obtain ⟨⟨op, shape⟩, hrow, hname⟩ := List.mem_map.1 (mem_rowNames f.mnemonic f.mode (List.contains_iff_mem.1 hmode))
  have hbytes : f.operand.bytes = shape.operandBytes := by
    rw [beq_iff_eq.1 hfits, operandBytes_of_row _ hrow, hname]
  obtain ⟨i, hi⟩ := Shape.exists_instr hbytes
  obtain ⟨hform, hoperand⟩ := form_of_row hrow hi
  obtain ⟨hmnemonic, hmode⟩ := Prod.mk.inj (hname.symm.trans hform)
  exact ⟨i, form_eq_of_fields hmnemonic.symm hmode.symm hoperand⟩

/-- A form has an instruction exactly when it is well-formed. -/
theorem toInstr_isSome (f : Form) : f.toInstr.isSome = f.wellFormed := by
  rw [Bool.eq_iff_iff, Option.isSome_iff_exists]
  constructor
  · rintro ⟨i, hi⟩
    exact form_of_toInstr hi ▸ (Laws.InstrWellFormed.all i).1
  · intro h
    obtain ⟨i, rfl⟩ := exists_form_eq_of_fields h
    exact ⟨i, toInstr_form i⟩

/-! The opcode bytes: which are assigned, and the closed-form mode of the generic family (30 R54, R59, R60). -/

/-- A list of bytes as the 256-bit number whose bit `n` says whether the byte `n` is listed. -/
def byteSet : List Word → Nat
  | [] => 0
  | w :: ws => 2 ^ w.toNat ||| byteSet ws

/-- The bit of a byte says whether the byte is listed. -/
theorem testBit_byteSet (ws : List Word) (op : Word) : (byteSet ws).testBit op.toNat = true ↔ op ∈ ws := by
  induction ws with
  | nil => simp [byteSet]
  | cons w ws ih =>
    rw [byteSet, Nat.testBit_or, Bool.or_eq_true, ih, Nat.testBit_two_pow, decide_eq_true_eq, BitVec.toNat_inj,
      List.mem_cons, eq_comm]

/-- The listed unassigned bytes are the complement of the bytes of the opcode table. -/
theorem byteSet_opcodeTable_xor_unassigned : byteSet (opcodeTable.map Prod.fst) ^^^
    byteSet (Claims.unassignedOutside ++ Claims.unassignedGeneric) = 2 ^ 256 - 1 := by decide +kernel

/-- A byte has no row exactly when it is not the byte of a row. -/
theorem decodeOpcode_eq_none_iff_notMem (op : Word) : decodeOpcode op = none ↔ op ∉ opcodeTable.map Prod.fst := by
  rw [decodeOpcode, List.lookup_eq_none_iff, List.mem_map]
  constructor
  · rintro h ⟨row, hrow, rfl⟩
    simpa using h row hrow
  · exact fun h row hrow => bne_iff_ne.2 fun heq => h ⟨row, hrow, heq.symm⟩

/-- A byte has no row exactly when it is listed as unassigned. -/
theorem decodeOpcode_eq_none_iff (op : Word) :
    decodeOpcode op = none ↔ op ∈ Claims.unassignedOutside ++ Claims.unassignedGeneric := by
  have hxor := congrArg (Nat.testBit · op.toNat) byteSet_opcodeTable_xor_unassigned
  simp only [Nat.testBit_xor, Nat.testBit_two_pow_sub_one, op.isLt, decide_true] at hxor
  rw [decodeOpcode_eq_none_iff_notMem, ← testBit_byteSet, ← testBit_byteSet, Bool.eq_not.2 (Bool.xor_iff_ne.1 hxor),
    Bool.not_eq_true, Bool.not_eq_false']

/-- In the generic family the closed form gives the mode of the row. -/
theorem genericMode_of_row : ∀ row ∈ opcodeTable, isGeneric row.1 = true → genericMode row.1 = some (rowName row).2 := by
  decide

namespace Machine

section Unassigned

variable {s : State} (h : decodeOpcode (s.memRead s.pc) = none)
include h

/-- A step that fetches an unassigned byte raises the error (60 R175). -/
theorem step_of_unassigned : step s = .fault (.unrecognizedOpcode s.pc (s.memRead s.pc)) := by
  rcases decode_fetchBytes s with ⟨shape, i, hop, -, -⟩ | ⟨-, hdecode⟩
  · cases h.symm.trans hop
  · simp only [step, hdecode, State.raiseUnrecognizedOpcode]

/-- A step that fetches an unassigned byte reads nothing else (30 R60). -/
theorem stepAccesses_of_unassigned : s.stepAccesses = [.read s.pc (s.memRead s.pc)] := by
  simp only [State.stepAccesses, specDecode, h, State.readAccess]

end Unassigned

/-! Where the bytes of an instruction lie. -/

/-- No opcode byte has more than two operand bytes behind it. -/
theorem operandCount_le (op : Word) : operandCount op ≤ 2 := by
  unfold operandCount
  split
  case h_1 => exact Nat.zero_le 2
  case h_2 shape _ => cases shape <;> simp [Shape.operandBytes]

/-- At most two consecutive bytes, written out. -/
theorem State.readBytes_eq_take (s : State) {n : Nat} (h : n ≤ 2) (a : Address) :
    s.readBytes n a = [s.memRead a, s.memRead (a + 1)].take n := by
  interval_cases n <;> rfl

/-- The bytes of a fetch lie at `pc` and the next addresses, as many as the opcode byte says (30 R50). -/
theorem fetchBytes_eq_take (s : State) : s.fetchBytes =
    [s.memRead s.pc, s.memRead (s.pc + 1), s.memRead (s.pc + 2)].take (1 + operandCount (s.memRead s.pc)) := by
  rw [State.fetchBytes, s.readBytes_eq_take (operandCount_le _), BitVec.add_assoc, Nat.add_comm 1, List.take_succ_cons]
  rfl

/-- A fetch decodes with nothing left over. -/
theorem rest_of_decode_fetchBytes {s : State} {i : Instr} {rest : List Word}
    (h : decode s.fetchBytes = .ok (i, rest)) : rest = [] := by
  rcases decode_fetchBytes s with ⟨-, j, -, -, hj⟩ | ⟨-, hn⟩
  · cases hj.symm.trans h
    rfl
  · cases hn.symm.trans h

/-- The width of a fetched instruction, by its opcode byte. -/
theorem width_of_decode_fetchBytes {s : State} {i : Instr} (h : decode s.fetchBytes = .ok (i, [])) :
    i.width = 1 + operandCount (s.memRead s.pc) := by
  have hencode : s.fetchBytes = encode i := (eq_encode_append_of_decode h).trans (List.append_nil _)
  obtain ⟨-, hlength, -⟩ := Laws.InstrWellFormed.all i
  rw [← hlength, length_encode, ← hencode]
  rfl

/-! The obligations. -/

/-- Settles O1: the row of the encoding's opcode byte makes the instruction of the operand that follows. -/
theorem decodeOfEncodeIsTheInstruction : Obligations.DecodeOfEncodeIsTheInstruction := decode_encode

/-- Settles O2: the instructions of every row are encoded with the byte of the row. -/
theorem decodedBytesAreTheEncoding : Obligations.DecodedBytesAreTheEncoding := fun _ _ _ => eq_encode_append_of_decode

/-- Settles O4: the listed bytes are those without a row, and a step that finds no row raises. -/
theorem unassignedBytesRaise : Obligations.UnassignedBytesRaise := by
  refine ⟨rfl, rfl, decodeOpcode_eq_none_iff, fun op bytes rest h => ?_, fun s hs => ?_⟩
  · exact (List.cons.inj (eq_encode_append_of_decode h)).1
  · have hop := (decodeOpcode_eq_none_iff _).2 hs
    exact ⟨by simp only [State.hostStep, step_of_unassigned hop], stepAccesses_of_unassigned hop⟩

/-- Settles O5: the 25 bytes have a closed-form mode and no row. -/
theorem genericBytesWithoutMnemonicRaise : Obligations.GenericBytesWithoutMnemonicRaise := by
  intro op hmem
  have closedForm : ∀ op ∈ Claims.unassignedGeneric, isGeneric op = true ∧ (genericMode op).isSome = true := by decide
  have hop := (decodeOpcode_eq_none_iff op).2 (List.mem_append_right _ hmem)
  obtain ⟨hgeneric, hmode⟩ := closedForm op hmem
  refine ⟨hgeneric, hmode, hop, ?_⟩
  rintro s rfl
  exact ⟨step_of_unassigned hop, stepAccesses_of_unassigned hop⟩

/-- Settles O6: the closed form is compared with the table of 30 R54 byte by byte, and with the mode of every row. -/
theorem genericModeIsTheModeOfTheTable : Obligations.GenericModeIsTheModeOfTheTable := by
  refine ⟨by decide, fun i op bytes hencode hgeneric => ⟨?_, ?_⟩, by decide⟩
  · obtain ⟨op', shape, hrow, hop, hi⟩ := exists_row i
    obtain rfl : op = op' := (List.cons.inj (hencode.symm.trans hrow)).1
    have hmem := mem_opcodeTable_of_decodeOpcode hop
    rw [genericMode_of_row _ hmem hgeneric, (form_of_row hmem hi).1]
  · obtain ⟨-, hlength, -⟩ := Laws.InstrWellFormed.all i
    exact hlength

/-- Settles O7: the length of an encoding and of a fetch is what the opcode byte says. -/
theorem opcodeAloneDeterminesTheLength : Obligations.OpcodeAloneDeterminesTheLength := by
  refine ⟨fun i => ?_, rfl, rfl, rfl, fun i j h => ?_, fun s i rest h => ?_⟩
  · obtain ⟨-, hlength, -⟩ := Laws.InstrWellFormed.all i
    exact hlength
  · rw [length_encode, length_encode, List.headD_eq_head?_getD, List.headD_eq_head?_getD, h]
  · obtain rfl := rest_of_decode_fetchBytes h
    rw [width_of_decode_fetchBytes h]
    exact ⟨fetchBytes_eq_take s, rfl⟩

/-- Settles O8: the rows have the combinations of 30 R57, each once. -/
theorem formsAssembleExactlyByTheTable : Obligations.FormsAssembleExactlyByTheTable :=
  ⟨toInstr_isSome, fun _ _ => form_of_toInstr, fun i => by rw [Form.assemble, toInstr_form]; rfl⟩

/-- Settles O3: the decoder run on the words. -/
theorem specWordsDecode : Obligations.SpecWordsDecode := by
  unfold Obligations.SpecWordsDecode
  and_intros <;> rfl

end Machine

end Sys2Proof
end

section
/-! SUPPORT. The addressing-mode resolver on numbers (40_addressing R73 to R80): each mode's effective address as the spec's
formula writes it, with its sums modulo 256 or 65536 and its words read low byte first; then the obligations of 40_addressing. -/

namespace Sys2Proof.Machine

/-- A zero-extended byte is the same number (00_scope section 5). -/
@[simp] theorem toNat_zext16 (v : Word) : (zext16 v).toNat = v.toNat :=
  BitVec.toNat_setWidth_of_le (by decide)

/-- A zero-extended byte is an address in the zero page. -/
theorem zext16_lt (v : Word) : (zext16 v).toNat < 256 := by
  rw [toNat_zext16]
  exact v.isLt

/-- An indexed zero-page address wraps inside the zero page (40 R73, R76). -/
theorem toNat_zext16_add (v w : Word) : (zext16 (v + w)).toNat = (v.toNat + w.toNat) % 256 := by
  rw [toNat_zext16, BitVec.toNat_add]

/-- An address indexed by a byte wraps modulo 65536 (40 R74, R78, R80). -/
theorem toNat_add_zext16 (a : Address) (v : Word) : (a + zext16 v).toNat = (a.toNat + v.toNat) % 65536 := by
  rw [BitVec.toNat_add, toNat_zext16]

section

variable (s : State)

/-- A byte read, at an address given as a number (20 R31). -/
theorem State.toNat_memRead_ofNat (n : Nat) : (s.memRead (BitVec.ofNat 16 n)).toNat = Claims.byteAt s n := rfl

/-- A two-byte read, at an address given as a number (20 R32). -/
theorem State.toNat_memRead16_ofNat (n : Nat) : (s.memRead16 (BitVec.ofNat 16 n)).toNat = Claims.wordAt s n := by
  have next : BitVec.ofNat 16 n + 1 = BitVec.ofNat 16 (n + 1) := (BitVec.ofNat_add n 1).symm
  rw [State.memRead16, toNat_joinBytes, next, s.toNat_memRead_ofNat, s.toNat_memRead_ofNat, Claims.wordAt, Nat.add_comm]

/-- A two-byte read as a number. -/
theorem State.toNat_memRead16 (a : Address) : (s.memRead16 a).toNat = Claims.wordAt s a.toNat := by
  rw [← s.toNat_memRead16_ofNat, BitVec.ofNat_toNat, BitVec.setWidth_eq]

/-- The address behind the opcode, as a number reduced modulo 65536. -/
theorem State.pc_add_one : s.pc + 1 = BitVec.ofNat 16 (s.pc.toNat + 1) := by
  rw [BitVec.ofNat_add, BitVec.ofNat_toNat, BitVec.setWidth_eq]
  rfl

/-- The operand byte `d` as a number (30 R52). -/
theorem State.toNat_operandByte : s.operandByte.toNat = Claims.byteAt s (s.pc.toNat + 1) := by
  rw [State.operandByte, s.pc_add_one, s.toNat_memRead_ofNat]

/-- The operand word `a` as a number (30 R52). -/
theorem State.toNat_operandWord : s.operandWord.toNat = Claims.wordAt s (s.pc.toNat + 1) := by
  rw [State.operandWord, s.pc_add_one, s.toNat_memRead16_ofNat]

variable (d : Word) (a : Address)

/-- 40 R73. -/
theorem State.toNat_eaIndexedIndirectX :
    (s.eaIndexedIndirectX d).toNat = Claims.wordAt s ((d.toNat + s.x.toNat) % 256) := by
  rw [State.eaIndexedIndirectX, s.toNat_memRead16, toNat_zext16_add]

/-- 40 R74. -/
theorem State.toNat_eaIndirectIndexedY :
    (s.eaIndirectIndexedY d).toNat = (Claims.wordAt s d.toNat + s.y.toNat) % 65536 := by
  rw [State.eaIndirectIndexedY, toNat_add_zext16, s.toNat_memRead16, toNat_zext16]

/-- 40 R75. -/
theorem State.toNat_eaZeroPage : (s.eaZeroPage d).toNat = d.toNat := toNat_zext16 d

/-- 40 R76. -/
theorem State.toNat_eaZeroPageIndexedX : (s.eaZeroPageIndexedX d).toNat = (d.toNat + s.x.toNat) % 256 :=
  toNat_zext16_add d s.x

/-- 40 R77. -/
theorem State.toNat_eaImmediate : s.eaImmediate.toNat = (s.pc.toNat + 1) % 65536 := BitVec.toNat_add s.pc 1

/-- 40 R78. -/
theorem State.toNat_eaAbsoluteIndexedY : (s.eaAbsoluteIndexedY a).toNat = (a.toNat + s.y.toNat) % 65536 :=
  toNat_add_zext16 a s.y

/-- 40 R80. -/
theorem State.toNat_eaAbsoluteIndexedX : (s.eaAbsoluteIndexedX a).toNat = (a.toNat + s.x.toNat) % 65536 :=
  toNat_add_zext16 a s.x

/-- The pointer of an indirect mode lies in the zero page (40 R73, R74). -/
theorem State.pointerAddress_lt {m : Mode} {p : Address} (h : s.pointerAddress m = some p) : p.toNat < 256 := by
  cases m with
  | indexedIndirectX =>
    obtain rfl : zext16 (s.operandByte + s.x) = p := Option.some.inj h
    exact zext16_lt _
  | indirectIndexedY =>
    obtain rfl : zext16 s.operandByte = p := Option.some.inj h
    exact zext16_lt _
  | _ => cases h

end

/-- The operand of a fetched instruction in Immediate mode is the byte behind the opcode (40 R77; log entry 8). -/
theorem immediate_operand_of_decode {s : State} {i : Instr} (h : decode s.fetchBytes = .ok (i, []))
    (hmode : i.mode = .immediate) : i.form.operand = .byte (s.memRead s.eaImmediate) := by
  rw [operand_of_decode h, hmode]
  rfl

/-! The obligations. -/

/-- Settles O28: each mode's address by its formula, at the operand byte or word that lies behind the opcode. -/
theorem resolverFormulas : Obligations.ResolverFormulas := by
  intro s
  dsimp only [State.resolve, Option.map_some]
  rw [s.toNat_eaIndexedIndirectX, s.toNat_eaIndirectIndexedY, s.toNat_eaZeroPage, s.toNat_eaZeroPageIndexedX,
    s.toNat_eaImmediate, s.toNat_eaAbsoluteIndexedY, State.eaAbsolute, s.toNat_eaAbsoluteIndexedX,
    s.toNat_operandByte, s.toNat_operandWord]
  and_intros <;> rfl

/-- Settles O29: the two resolvers agree on a fetched instruction, and its Immediate operand is the byte behind the opcode. -/
theorem decodedOperandResolvesTheSameAddress : Obligations.DecodedOperandResolvesTheSameAddress := by
  intro s i rest h
  obtain rfl := rest_of_decode_fetchBytes h
  refine ⟨(resolve_of_decode h).symm, fun d hmode hd => ?_⟩
  exact Operand.byte.inj (hd.symm.trans (immediate_operand_of_decode h hmode))

/-- Settles O30: each of the three addresses is a zero-extended byte. -/
theorem zeroPageModesStayInTheZeroPage : Obligations.ZeroPageModesStayInTheZeroPage := fun s d =>
  ⟨zext16_lt d, zext16_lt (d + s.x), fun _ _ => s.pointerAddress_lt⟩

end Sys2Proof.Machine
end

section
/-! SUPPORT. Loads, stores and transfers (41_load_store_transfer): the listed forms of a mnemonic beside the model's own reading
of each, what an instruction of a listed form answers, and the byte a store leaves in memory; then the obligations of 41. -/

namespace Sys2Proof.Machine

/-- An instruction answers its operation's state with `pc` behind its bytes (47 R164). -/
theorem exec_eq_perform_pcAfter (i : Instr) (s : State) : exec i s =
    .next { s.perform (s.operandValue i) ((s.effectiveAddress i).getD 0) i.mnemonic with
      pc := Claims.pcAfter s (encode i) } := by
  obtain ⟨-, hlength, -⟩ := Laws.InstrWellFormed.all i
  rw [exec_eq_perform, State.advance, State.perform_pc, Claims.pcAfter, hlength]

/-- A write at an address of the core stores the byte there, and nothing elsewhere (20 R33). -/
theorem Memory.storesByte_write (mem : Memory) (ea : Address) (v : Word) :
    Claims.StoresByte mem (mem.write ea.toNat v) ea v := by
  refine fun hwf => ⟨Memory.wf_write hwf v ea.isLt, fun b => ?_⟩
  rw [Memory.read_write hwf]
  simp only [BitVec.toNat_inj]

/-- The listed form is one of `m`, and its listed bytes and the byte it reads are those of the model. -/
def State.ReadingForm (s : State) (m : Mnemonic) (f : Instr × List Word × Word) : Prop :=
  f.1.mnemonic = m ∧ encode f.1 = f.2.1 ∧ s.operandValue f.1 = f.2.2

/-- The listed form is one of `m`, and its listed bytes and effective address are those of the model. -/
def State.AddressedForm (s : State) (m : Mnemonic) (f : Instr × List Word × Address) : Prop :=
  f.1.mnemonic = m ∧ encode f.1 = f.2.1 ∧ s.effectiveAddress f.1 = some f.2.2

section Forms

variable {s : State} {m : Mnemonic}

theorem State.ReadingForm.encode_eq {f : Instr × List Word × Word} (hf : s.ReadingForm m f) : encode f.1 = f.2.1 := hf.2.1

theorem State.AddressedForm.encode_eq {f : Instr × List Word × Address} (hf : s.AddressedForm m f) :
    encode f.1 = f.2.1 := hf.2.1

/-- What a reading form answers whose operation is SetZN of a byte `r` in the state `t`, where `t` has the `SR` of `s`. -/
theorem State.ReadingForm.exec_setZN {f : Instr × List Word × Word} (hf : s.ReadingForm m f) (t : State) (r : Word)
    (hperform : ∀ ea, s.perform f.2.2 ea m = t.setZN r) (hsr : t.sr = s.sr) :
    ∃ sr', Claims.SrChanges s.sr sr' (Claims.znBits r) ∧
      exec f.1 s = .next { t with sr := sr', pc := Claims.pcAfter s f.2.1 } := by
  obtain ⟨hmnemonic, hbytes, hvalue⟩ := hf
  refine ⟨(t.setZN r).sr, hsr ▸ t.setZN_srChanges r, ?_⟩
  rw [exec_eq_perform_pcAfter, hmnemonic, hbytes, hvalue, hperform]
  rfl

/-- What an addressed form answers whose operation is the store of a byte `v` (41 R93 to R95). -/
theorem State.AddressedForm.exec_memWrite {f : Instr × List Word × Address} (hf : s.AddressedForm m f) (v : Word)
    (hperform : ∀ w, s.perform w f.2.2 m = s.memWrite f.2.2 v) :
    ∃ mem', Claims.StoresByte s.mem mem' f.2.2 v ∧
      exec f.1 s = .next { s with mem := mem', pc := Claims.pcAfter s f.2.1 } := by
  obtain ⟨hmnemonic, hbytes, haddress⟩ := hf
  refine ⟨_, Memory.storesByte_write s.mem f.2.2 v, ?_⟩
  rw [exec_eq_perform_pcAfter, hmnemonic, hbytes, haddress, Option.getD_some, hperform]
  rfl

end Forms

/-! The listed forms, one by one: each with its mnemonic, and its opcode byte inside or outside the generic family. -/

section Tables

variable (s : State) (d : Word) (a : Address)

theorem ldaForms_readingForm : ∀ f ∈ Claims.ldaForms s d a, s.ReadingForm .lda f ∧ isGeneric (f.2.1.headD 0) = true :=
  List.forall_iff_forall_mem.1 (by dsimp only [Claims.ldaForms, List.Forall, List.headD_cons]; and_intros <;> rfl)

theorem ldxForms_readingForm : ∀ f ∈ Claims.ldxForms s d a,
    s.ReadingForm .ldx f ∧ isGeneric (f.2.1.headD 0) = decide (f.2.1.headD 0 ≠ 0xA2) :=
  List.forall_iff_forall_mem.1 (by dsimp only [Claims.ldxForms, List.Forall, List.headD_cons]; and_intros <;> rfl)

theorem ldyForms_readingForm : ∀ f ∈ Claims.ldyForms s d a, s.ReadingForm .ldy f ∧ isGeneric (f.2.1.headD 0) = false :=
  List.forall_iff_forall_mem.1 (by dsimp only [Claims.ldyForms, List.Forall, List.headD_cons]; and_intros <;> rfl)

theorem staForms_addressedForm : ∀ f ∈ Claims.staForms s d a,
    s.AddressedForm .sta f ∧ isGeneric (f.2.1.headD 0) = true :=
  List.forall_iff_forall_mem.1 (by dsimp only [Claims.staForms, List.Forall, List.headD_cons]; and_intros <;> rfl)

theorem stxForms_addressedForm : ∀ f ∈ Claims.stxForms s d a,
    s.AddressedForm .stx f ∧ isGeneric (f.2.1.headD 0) = true :=
  List.forall_iff_forall_mem.1 (by dsimp only [Claims.stxForms, List.Forall, List.headD_cons]; and_intros <;> rfl)

theorem styForms_addressedForm : ∀ f ∈ Claims.styForms s d a,
    s.AddressedForm .sty f ∧ isGeneric (f.2.1.headD 0) = false :=
  List.forall_iff_forall_mem.1 (by dsimp only [Claims.styForms, List.Forall, List.headD_cons]; and_intros <;> rfl)

end Tables

/-! The obligations. -/

/-- Settles O36: `lda` is SetZN of the byte read, in the state with that byte in `AC`. -/
theorem ldaLoadsTheOperandByte : Obligations.LdaLoadsTheOperandByte := by
  refine ⟨fun s d a f hf => ?_, fun _ _ => rfl⟩
  obtain ⟨hform, hgeneric⟩ := ldaForms_readingForm s d a f hf
  exact ⟨hform.encode_eq, hgeneric, hform.exec_setZN (s.setAc f.2.2) f.2.2 (fun _ => rfl) rfl⟩

/-- Settles O37: `ldx` is SetZN of the byte read, in the state with that byte in `X`. -/
theorem ldxLoadsTheOperandByte : Obligations.LdxLoadsTheOperandByte := by
  refine ⟨fun s d a f hf => ?_, fun _ _ => rfl, rfl, rfl⟩
  obtain ⟨hform, hgeneric⟩ := ldxForms_readingForm s d a f hf
  exact ⟨hform.encode_eq, hgeneric, hform.exec_setZN (s.setX f.2.2) f.2.2 (fun _ => rfl) rfl⟩

/-- Settles O38: `ldy` is SetZN of the byte read, in the state with that byte in `Y`. -/
theorem ldyLoadsTheOperandByte : Obligations.LdyLoadsTheOperandByte := by
  refine ⟨fun s d a f hf => ?_, fun _ _ => rfl⟩
  obtain ⟨hform, hgeneric⟩ := ldyForms_readingForm s d a f hf
  exact ⟨hform.encode_eq, hgeneric, hform.exec_setZN (s.setY f.2.2) f.2.2 (fun _ => rfl) rfl⟩

/-- Settles O39: `sta` is the write of `AC` at the effective address, which the zero-page modes keep in the zero page (O30). -/
theorem staStoresTheRegister : Obligations.StaStoresTheRegister := by
  refine ⟨fun s d a f hf => ?_, fun _ _ => rfl, fun s d => ?_, rfl⟩
  · obtain ⟨hform, hgeneric⟩ := staForms_addressedForm s d a f hf
    exact ⟨hform.encode_eq, hgeneric, hform.exec_memWrite s.ac fun _ => rfl⟩
  · obtain ⟨hzeroPage, hindexed, -⟩ := zeroPageModesStayInTheZeroPage s d
    exact ⟨hzeroPage, hindexed⟩

/-- Settles O40: `stx` is the write of `X` at the effective address. -/
theorem stxStoresTheRegister : Obligations.StxStoresTheRegister := by
  refine ⟨fun s d a f hf => ?_, fun _ _ => rfl, rfl⟩
  obtain ⟨hform, hgeneric⟩ := stxForms_addressedForm s d a f hf
  exact ⟨hform.encode_eq, hgeneric, hform.exec_memWrite s.x fun _ => rfl⟩

/-- Settles O41: `sty` is the write of `Y` at the effective address. -/
theorem styStoresTheRegister : Obligations.StyStoresTheRegister := by
  refine ⟨fun s d a f hf => ?_, fun _ _ => rfl⟩
  obtain ⟨hform, hgeneric⟩ := styForms_addressedForm s d a f hf
  exact ⟨hform.encode_eq, hgeneric, hform.exec_memWrite s.y fun _ => rfl⟩

/-- Settles O42: five transfers are SetZN of the source, in the state with the source copied; `txs` copies and no more. -/
theorem transfersCopyTheRegister : Obligations.TransfersCopyTheRegister := fun s =>
  ⟨⟨rfl, _, (s.setX s.ac).setZN_srChanges s.ac, rfl⟩,
   ⟨rfl, _, (s.setY s.ac).setZN_srChanges s.ac, rfl⟩,
   ⟨rfl, _, (s.setAc s.x).setZN_srChanges s.x, rfl⟩,
   ⟨rfl, _, (s.setAc s.y).setZN_srChanges s.y, rfl⟩,
   ⟨rfl, _, (s.setX s.sp).setZN_srChanges s.sp, rfl⟩,
   rfl, rfl⟩

end Sys2Proof.Machine
end

section
/-! SUPPORT. Increments and decrements (42_increment_decrement): the next and the previous byte as numbers modulo 256, and what
an addressed form answers that stores a byte and writes flags; then the obligations of 42. -/

namespace Sys2Proof.Machine

/-! The next and the previous byte modulo 256. -/

/-- Plus 1 modulo 256 is the next byte (42 R110 to R112). -/
theorem ofNat_toNat_add_one (v : Word) : BitVec.ofNat 8 (v.toNat + 1) = v + 1 := by
  rw [BitVec.ofNat_add, BitVec.ofNat_toNat, BitVec.setWidth_eq]
  rfl

/-- Plus 255 modulo 256 is the byte before (42 R113, R114). -/
theorem ofNat_toNat_add_255 (v : Word) : BitVec.ofNat 8 (v.toNat + 255) = v - 1 := by
  rw [BitVec.ofNat_add, BitVec.ofNat_toNat, BitVec.setWidth_eq, BitVec.sub_eq_add_neg]
  rfl

/-! The forms of `inc`. -/

/-- What an addressed form answers whose operation stores a byte `r` and leaves `sr'` in `SR` (42 R110, 45 R135 to R138). -/
theorem State.AddressedForm.exec_memWrite_setSr {s : State} {m : Mnemonic} {f : Instr × List Word × Address}
    (hf : s.AddressedForm m f) {r sr' : Word} {bits : List (Nat × Bool)} (hsr : Claims.SrChanges s.sr sr' bits)
    (hperform : ∀ v, s.perform v f.2.2 m = (s.memWrite f.2.2 r).setSr sr') :
    ∃ mem' sr', Claims.StoresByte s.mem mem' f.2.2 r ∧ Claims.SrChanges s.sr sr' bits ∧
      exec f.1 s = .next { s with mem := mem', sr := sr', pc := Claims.pcAfter s f.2.1 } := by
  obtain ⟨hmnemonic, hbytes, haddress⟩ := hf
  refine ⟨_, sr', Memory.storesByte_write s.mem f.2.2 r, hsr, ?_⟩
  rw [exec_eq_perform_pcAfter, hmnemonic, hbytes, haddress, Option.getD_some, hperform]
  rfl

/-- The listed forms of `inc`, one by one; all four are in the generic family. -/
theorem incForms_addressedForm (s : State) (d : Word) (a : Address) : ∀ f ∈ Claims.incForms s d a,
    s.AddressedForm .inc f ∧ isGeneric (f.2.1.headD 0) = true :=
  List.forall_iff_forall_mem.1 (by dsimp only [Claims.incForms, List.Forall, List.headD_cons]; and_intros <;> rfl)

/-! The obligations. -/

/-- Settles O43: `inc` is SetZN of the next byte, in the state with that byte stored at the effective address. -/
theorem incIncrementsTheMemoryByte : Obligations.IncIncrementsTheMemoryByte := by
  refine ⟨fun s d a f hf => ?_, fun s ea => ?_⟩
  · obtain ⟨hform, hgeneric⟩ := incForms_addressedForm s d a f hf
    have hsr := (s.memWrite f.2.2 (s.memRead f.2.2 + 1)).setZN_srChanges (s.memRead f.2.2 + 1)
    rw [ofNat_toNat_add_one]
    exact ⟨hform.encode_eq, hgeneric, hform.exec_memWrite_setSr hsr fun _ => rfl⟩
  · rw [ofNat_toNat_add_one]
    rfl

/-- Settles O44: each is SetZN of the next or the previous byte, in the state with that byte in the register. -/
theorem registerIncrementsAndDecrements : Obligations.RegisterIncrementsAndDecrements := by
  intro s
  rw [ofNat_toNat_add_one, ofNat_toNat_add_one, ofNat_toNat_add_255, ofNat_toNat_add_255]
  exact ⟨⟨rfl, _, (s.setX (s.x + 1)).setZN_srChanges (s.x + 1), rfl⟩,
    ⟨rfl, _, (s.setY (s.y + 1)).setZN_srChanges (s.y + 1), rfl⟩,
    ⟨rfl, _, (s.setX (s.x - 1)).setZN_srChanges (s.x - 1), rfl⟩,
    ⟨rfl, _, (s.setY (s.y - 1)).setZN_srChanges (s.y - 1), rfl⟩⟩

end Sys2Proof.Machine
end

section
/-! SUPPORT. The logical instructions (43_logical): the listed forms of `eor` and `ora` beside the model's own reading of each;
then the obligations of 43. -/

namespace Sys2Proof.Machine

/-! The listed forms, one by one; all are in the generic family. -/

section Tables

variable (s : State) (d : Word) (a : Address)

theorem eorForms_readingForm : ∀ f ∈ Claims.eorForms s d a, s.ReadingForm .eor f ∧ isGeneric (f.2.1.headD 0) = true :=
  List.forall_iff_forall_mem.1 (by dsimp only [Claims.eorForms, List.Forall, List.headD_cons]; and_intros <;> rfl)

theorem oraForms_readingForm : ∀ f ∈ Claims.oraForms s d a, s.ReadingForm .ora f ∧ isGeneric (f.2.1.headD 0) = true :=
  List.forall_iff_forall_mem.1 (by dsimp only [Claims.oraForms, List.Forall, List.headD_cons]; and_intros <;> rfl)

end Tables

/-! The obligations. -/

/-- Settles O45: `eor` is SetZN of the exclusive or of `AC` and the byte read, in the state with it in `AC`. -/
theorem eorCombinesIntoTheAccumulator : Obligations.EorCombinesIntoTheAccumulator := by
  refine ⟨fun s d a f hf => ?_, fun _ _ => rfl⟩
  obtain ⟨hform, hgeneric⟩ := eorForms_readingForm s d a f hf
  obtain ⟨sr', hsr, hexec⟩ := hform.exec_setZN (s.setAc (s.ac ^^^ f.2.2)) (s.ac ^^^ f.2.2) (fun _ => rfl) rfl
  exact ⟨hform.encode_eq, hgeneric, s.ac ^^^ f.2.2, sr', fun _ _ => BitVec.getLsbD_xor, hsr, hexec⟩

/-- Settles O46: `ora` is SetZN of the inclusive or of `AC` and the byte read, in the state with it in `AC`. -/
theorem oraCombinesIntoTheAccumulator : Obligations.OraCombinesIntoTheAccumulator := by
  refine ⟨fun s d a f hf => ?_, fun _ _ => rfl⟩
  obtain ⟨hform, hgeneric⟩ := oraForms_readingForm s d a f hf
  obtain ⟨sr', hsr, hexec⟩ := hform.exec_setZN (s.setAc (s.ac ||| f.2.2)) (s.ac ||| f.2.2) (fun _ => rfl) rfl
  exact ⟨hform.encode_eq, hgeneric, s.ac ||| f.2.2, sr', fun _ _ => BitVec.getLsbD_or, hsr, hexec⟩

end Sys2Proof.Machine
end

section
/-! SUPPORT. The arithmetic instructions (44_arithmetic): sum, carry and overflow as numbers, what an instruction that adds
answers, and the status bits an operation neither reads nor writes; then the obligations of 44. -/

namespace Sys2Proof.Machine

/-! Bytes as unsigned and signed numbers. -/

/-- Bit 7 of a byte says that it is at least 128. -/
theorem getLsbD_seven_eq (v : Word) : v.getLsbD 7 = decide (128 ≤ v.toNat) :=
  (BitVec.msb_eq_getLsbD_last v).symm.trans (BitVec.msb_eq_decide v)

/-- The one's complement is the bitwise complement (44 R126). -/
theorem onesComplement_eq_not (m : Word) : onesComplement m = ~~~m := BitVec.xor_allOnes

/-- The one's complement as a number. -/
theorem toNat_onesComplement (m : Word) : (onesComplement m).toNat = 255 - m.toNat := by
  rw [onesComplement_eq_not, BitVec.toNat_not]

/-- The one's complement as a signed number (44 R127). -/
theorem signed_onesComplement (m : Word) : Claims.signed (onesComplement m) = -Claims.signed m - 1 := by
  have hm := m.isLt
  rw [Claims.signed, Claims.signed, toNat_onesComplement]
  split <;> split <;> omega

/-! The sum of two bytes and a carry (44 R125, R127). -/

section Sum

variable (a b : Word) (c : Bool)

/-- The model's widened sum is the sum as an unbounded integer. -/
theorem wideSum_eq_sumOf : wideSum a b c = Claims.sumOf a b c := by cases c <;> rfl

/-- The widened sum has nine bits. -/
theorem sumOf_lt : Claims.sumOf a b c < 512 := by
  have ha := a.isLt
  have hb := b.isLt
  have hc := c.toNat_le
  rw [Claims.sumOf]
  omega

theorem sumResult_eq_ofNat : sumResult a b c = BitVec.ofNat 8 (Claims.sumOf a b c) := by
  rw [sumResult, wideSum_eq_sumOf]

theorem toNat_sumResult : (sumResult a b c).toNat = Claims.sumOf a b c % 256 := by
  rw [sumResult_eq_ofNat, BitVec.toNat_ofNat]

/-- Bit 8 of the widened sum says that it is at least 256. -/
theorem sumCarry_eq_decide : sumCarry a b c = decide (256 ≤ Claims.sumOf a b c) := by
  have ht := sumOf_lt a b c
  rw [sumCarry, wideSum_eq_sumOf, Nat.testBit_eq_decide_div_mod_eq, decide_eq_decide]
  omega

/-- Result and carry are the low eight bits and bit 8 of the widened sum. -/
theorem toNat_sumResult_add_sumCarry :
    (sumResult a b c).toNat + 256 * (sumCarry a b c).toNat = Claims.sumOf a b c := by
  have ht := sumOf_lt a b c
  rw [toNat_sumResult, sumCarry_eq_decide]
  by_cases hcarry : 256 ≤ Claims.sumOf a b c
  · rw [decide_eq_true hcarry, Bool.toNat_true]
    omega
  · rw [decide_eq_false hcarry, Bool.toNat_false]
    omega

/-- Form (a) of the overflow, on the signs, is the model's. -/
theorem sumOverflow_eq_overflowBit : sumOverflow a b c = Claims.overflowBit a b c := by
  rw [sumOverflow, Claims.overflowBit, ← sumResult_eq_ofNat, BitVec.msb_eq_getLsbD_last, BitVec.msb_eq_getLsbD_last,
    BitVec.msb_eq_getLsbD_last, Bool.decide_and, decide_not]
  rfl

/-- Form (b): the result's sign differs from both operands'. -/
theorem overflowBit_eq_xor : Claims.overflowBit a b c =
    ((a ^^^ sumResult a b c) &&& (b ^^^ sumResult a b c)).getLsbD 7 := by
  rw [Claims.overflowBit, ← sumResult_eq_ofNat, BitVec.getLsbD_and, BitVec.getLsbD_xor, BitVec.getLsbD_xor]
  cases a.getLsbD 7 <;> cases b.getLsbD 7 <;> cases (sumResult a b c).getLsbD 7 <;> rfl

/-- Form (c): the signed sum is outside the signed range. -/
theorem overflowBit_eq_signed : Claims.overflowBit a b c =
    decide (Claims.signed a + Claims.signed b + c.toNat < -128 ∨ 127 < Claims.signed a + Claims.signed b + c.toNat) := by
  have ha := a.isLt
  have hb := b.isLt
  have hc := c.toNat_le
  rw [Claims.overflowBit, decide_eq_decide, getLsbD_seven_eq, getLsbD_seven_eq, getLsbD_seven_eq, BitVec.toNat_ofNat,
    decide_eq_decide, ne_eq, decide_eq_decide, Claims.signed, Claims.signed, Claims.sumOf]
  split <;> split <;> omega

end Sum

/-- Adding the one's complement is subtracting with borrow, 256 higher (44 R126). -/
theorem sumOf_onesComplement (a m : Word) (c : Bool) :
    (Claims.sumOf a (onesComplement m) c : Int) = a.toNat - m.toNat - (1 - c.toNat) + 256 := by
  have hm := m.isLt
  rw [Claims.sumOf, toNat_onesComplement]
  omega

/-- The overflow of a subtraction: the signed difference is outside the signed range (44 R126, R127). -/
theorem overflowBit_onesComplement (a m : Word) (c : Bool) : Claims.overflowBit a (onesComplement m) c =
    decide (Claims.signed a - Claims.signed m - (1 - c.toNat) < -128 ∨
      127 < Claims.signed a - Claims.signed m - (1 - c.toNat)) := by
  rw [overflowBit_eq_signed, signed_onesComplement, decide_eq_decide]
  omega

/-! The addition both instructions make. -/

/-- What a listed form answers whose operation is the addition of `b`. -/
theorem State.ReadingForm.addsInto {s : State} {m : Mnemonic} {f : Instr × List Word × Word} (hf : s.ReadingForm m f)
    (b : Word) (hperform : ∀ ea, s.perform f.2.2 ea m = s.addWithCarry b) : Claims.AddsInto s f.1 f.2.1 b := by
  obtain ⟨hmnemonic, hbytes, hvalue⟩ := hf
  have changes := s.addWithCarry_srChanges b
  rw [State.flag_eq, sumCarry_eq_decide, sumOverflow_eq_overflowBit, sumResult_eq_ofNat] at changes
  refine ⟨_, changes, ?_⟩
  rw [exec_eq_perform_pcAfter, hmnemonic, hbytes, hvalue, hperform, State.addWithCarry, State.flag_eq, sumResult_eq_ofNat]
  rfl

/-- The new `AC` and Carry are the nine bits of the sum of the old ones and `b` (44 R125). -/
theorem State.addWithCarry_toNat (s : State) (b : Word) :
    (s.addWithCarry b).ac.toNat + 256 * ((s.addWithCarry b).sr.getLsbD 0).toNat =
      s.ac.toNat + b.toNat + (s.sr.getLsbD 0).toNat := by
  have hcarry : (s.addWithCarry b).sr.getLsbD 0 = sumCarry s.ac b (s.flag .carry) :=
    s.addWithCarry_srChanges b 0 (by decide)
  have hflag : s.sr.getLsbD 0 = s.flag .carry := (s.flag_eq .carry).symm
  rw [hcarry, hflag]
  exact toNat_sumResult_add_sumCarry s.ac b (s.flag .carry)

/-- The law of immediate `adc` (44 R129). -/
theorem exec_adcImm_toNat (s : State) (m : Word) : ∃ t, exec (.adcImm m) s = .next t ∧
    t.ac.toNat + 256 * (t.sr.getLsbD 0).toNat = s.ac.toNat + m.toNat + (s.sr.getLsbD 0).toNat :=
  ⟨_, rfl, s.addWithCarry_toNat m⟩

/-- The law of immediate `sbc` (44 R129), from the sum with the one's complement. -/
theorem exec_sbcImm_toNat (s : State) (m : Word) : ∃ t, exec (.sbcImm m) s = .next t ∧
    (t.ac.toNat : Int) - 256 * (1 - (t.sr.getLsbD 0).toNat) = s.ac.toNat - m.toNat - (1 - (s.sr.getLsbD 0).toNat) := by
  refine ⟨(s.sbc m).advance 2, rfl, ?_⟩
  have hm := m.isLt
  have hsum := s.addWithCarry_toNat (onesComplement m)
  rw [toNat_onesComplement] at hsum
  rw [State.advance_ac, State.advance_sr, State.sbc]
  omega

/-- `sec` leaves `AC` and sets Carry (46 R145). -/
theorem exec_sec_carry (s : State) : ∃ t, exec .sec s = .next t ∧ t.ac = s.ac ∧ t.sr.getLsbD 0 = true :=
  ⟨_, rfl, rfl, s.setFlag_srChanges .carry 0 (by decide)⟩

/-- `clc` leaves `AC` and clears Carry (46 R146). -/
theorem exec_clc_carry (s : State) : ∃ t, exec .clc s = .next t ∧ t.ac = s.ac ∧ t.sr.getLsbD 0 = false :=
  ⟨_, rfl, rfl, s.clearFlag_srChanges .carry 0 (by decide)⟩

/-! The status bits an operation neither reads nor writes. -/

/-- Inverting bits of `SR` that an operation neither reads nor writes inverts them in what it leaves, and nothing else. -/
theorem State.perform_setSr_xor (s : State) (v : Word) (ea : Address) {m : Mnemonic} {mask : Word}
    (hread : m ∈ [.adc, .sbc, .rol, .ror] → mask.getLsbD 0 = false)
    (hwritten : ∀ k ∈ Claims.writtenBits m, mask.getLsbD k = false) :
    (s.setSr (s.sr ^^^ mask)).perform v ea m = (s.perform v ea m).setSr ((s.perform v ea m).sr ^^^ mask) := by
  have hcarry : m ∈ [.adc, .sbc, .rol, .ror] → (s.sr ^^^ mask).getLsbD 0 = s.sr.getLsbD 0 := fun hm => by
    rw [BitVec.getLsbD_xor, hread hm, Bool.xor_false]
  rw [s.perform_setSr v _ ea hcarry]
  congr 1
  refine BitVec.eq_of_getLsbD_eq fun k hk => ?_
  rw [BitVec.getLsbD_xor, State.perform_srChanges _ _ _ _ k hk, State.perform_srChanges _ _ _ _ k hk,
    s.flagWrites_setSr v _ ea hcarry, State.setSr_sr, BitVec.getLsbD_xor]
  by_cases hw : k ∈ Claims.writtenBits m
  · obtain ⟨b, hb⟩ := s.lookup_flagWrites_of_written v ea hw
    simp only [hb, hwritten k hw, Option.getD_some, Bool.xor_false]
  · rw [s.lookup_flagWrites_of_unwritten v ea hw, Option.getD_none, Option.getD_none]

/-! The listed forms, one by one; all are in the generic family. -/

section Tables

variable (s : State) (d : Word) (a : Address)

theorem adcForms_readingForm : ∀ f ∈ Claims.adcForms s d a, s.ReadingForm .adc f ∧ isGeneric (f.2.1.headD 0) = true :=
  List.forall_iff_forall_mem.1 (by dsimp only [Claims.adcForms, List.Forall, List.headD_cons]; and_intros <;> rfl)

theorem sbcForms_readingForm : ∀ f ∈ Claims.sbcForms s d a, s.ReadingForm .sbc f ∧ isGeneric (f.2.1.headD 0) = true :=
  List.forall_iff_forall_mem.1 (by dsimp only [Claims.sbcForms, List.Forall, List.headD_cons]; and_intros <;> rfl)

end Tables

/-! The obligations. -/

/-- Settles O35: `adc` and `sbc` read Carry alone and write C, V, Z and N alone, so bit 3 of `SR` is neither read nor written. -/
theorem decimalFlagIsIgnoredByArithmetic : Obligations.DecimalFlagIsIgnoredByArithmetic := by
  refine ⟨fun i s hi => ?_, fun s => ?_, rfl⟩
  · have hwritten : ∀ k ∈ Claims.writtenBits i.mnemonic, (0x08 : Word).getLsbD k = false := by
      rcases hi with hi | hi <;> rw [hi] <;> decide
    have hdecimal : 3 ∉ Claims.writtenBits i.mnemonic := fun h => absurd (hwritten 3 h) (by decide)
    have hother := exec_eq_perform i (s.setSr (s.sr ^^^ 0x08))
    rw [State.operandValue_setSr, State.effectiveAddress_setSr, s.perform_setSr_xor _ _ (fun _ => rfl) hwritten] at hother
    exact ⟨_, exec_eq_perform i s, s.perform_sr_of_unwritten _ _ (by decide) hdecimal, hother⟩
  · exact ⟨_, _, rfl, s.setFlag_srChanges .decimal 3 (by decide), rfl, s.clearFlag_srChanges .decimal 3 (by decide)⟩

/-- Settles O47: every listed form adds the byte it reads, and the overflow by the signs is the signed range. -/
theorem adcAddsWithCarry : Obligations.AdcAddsWithCarry := by
  refine ⟨fun s d a f hf => ?_, fun _ _ => rfl⟩
  obtain ⟨hform, hgeneric⟩ := adcForms_readingForm s d a f hf
  exact ⟨hform.encode_eq, hgeneric, hform.addsInto f.2.2 fun _ => rfl, overflowBit_eq_signed s.ac f.2.2 _⟩

/-- Settles O48: every listed form adds the one's complement of the byte it reads, a sum 256 above the difference. -/
theorem sbcSubtractsWithBorrow : Obligations.SbcSubtractsWithBorrow := by
  refine ⟨fun s d a f hf => ?_, fun _ _ => rfl⟩
  obtain ⟨hform, hgeneric⟩ := sbcForms_readingForm s d a f hf
  have hsum := sumOf_onesComplement s.ac f.2.2 (s.sr.getLsbD 0)
  refine ⟨hform.encode_eq, hgeneric, hform.addsInto (onesComplement f.2.2) fun _ => rfl, ?_, ?_,
    overflowBit_onesComplement s.ac f.2.2 _⟩
  · rw [BitVec.toNat_ofNat, ← onesComplement]
    omega
  · rw [decide_eq_decide, ← onesComplement]
    omega

/-- Settles O49: form (a) is the model's overflow, and forms (b) and (c) are each equal to form (a). -/
theorem overflowFormsAgree : Obligations.OverflowFormsAgree := by
  refine ⟨fun a b c => ?_, signed_onesComplement⟩
  refine ⟨toNat_sumResult_add_sumCarry a b c, sumOverflow_eq_overflowBit a b c, ?_, ?_⟩
  · rw [sumOverflow_eq_overflowBit, overflowBit_eq_xor]
  · rw [sumOverflow_eq_overflowBit, overflowBit_eq_signed]

/-- Settles O50: the laws of the two additions, chained: `sec` and `clc` give the Carry each reads, and `AC` is below 256. -/
theorem subtractThenAddRestoresTheAccumulator : Obligations.SubtractThenAddRestoresTheAccumulator := by
  refine fun s m => ⟨exec_adcImm_toNat s m, exec_sbcImm_toNat s m, ?_⟩
  obtain ⟨s1, hsec, hac1, hcarry1⟩ := exec_sec_carry s
  obtain ⟨s2, hsbc, hsub⟩ := exec_sbcImm_toNat s1 m
  obtain ⟨s3, hclc, hac3, hcarry3⟩ := exec_clc_carry s2
  obtain ⟨s4, hadc, hadd⟩ := exec_adcImm_toNat s3 m
  refine ⟨s1, s2, s3, s4, hsec, hsbc, hclc, hadc, BitVec.eq_of_toNat_eq ?_⟩
  have hac := s.ac.isLt
  have hac4 := s4.ac.isLt
  rw [hcarry1, hac1, Bool.toNat_true] at hsub
  rw [hcarry3, hac3, Bool.toNat_false] at hadd
  omega

end Sys2Proof.Machine
end

section
/-! SUPPORT. Shifts and rotations (45_shift_rotate): the shifted byte as a number and bit by bit, what an addressed form
answers that shifts the byte at its address, and a left rotation undone by a right one; then the obligations of 45. -/

namespace Sys2Proof.Machine

/-! The shifted byte and the bit shifted out. -/

section Byte

variable (m : Word) (c : Bool)

theorem bitOf_eq_toNat : bitOf c = c.toNat := by cases c <;> rfl

/-- The byte of one bit has that bit at position 0 and no other. -/
theorem getLsbD_ofNat_bitOf (k : Nat) : (BitVec.ofNat 8 (bitOf c)).getLsbD k = (decide (k = 0) && c) := by
  cases c
  · exact BitVec.getLsbD_zero.trans (Bool.and_false _).symm
  · exact BitVec.getLsbD_one.trans (by simp)

/-- The new byte of a left shift as a number (45 R135). -/
theorem ofNat_shiftLeft_or : BitVec.ofNat 8 ((m.toNat <<< 1 ||| c.toNat) % 256) = shiftLeftIn m c := by
  refine BitVec.eq_of_toNat_eq ?_
  rw [shiftLeftIn, BitVec.toNat_or, BitVec.toNat_shiftLeft, BitVec.toNat_ofNat, BitVec.toNat_ofNat, bitOf_eq_toNat,
    ← Nat.or_mod_two_pow]
  exact Nat.mod_mod _ 256

/-- The new byte of a right shift as a number (45 R136). -/
theorem ofNat_shiftRight_or : BitVec.ofNat 8 (m.toNat >>> 1 ||| c.toNat <<< 7) = shiftRightIn m c := by
  have low : BitVec.ofNat 8 (m.toNat >>> 1) = m >>> 1 := by
    rw [← BitVec.toNat_ushiftRight, BitVec.ofNat_toNat, BitVec.setWidth_eq]
  have high : BitVec.ofNat 8 (c.toNat <<< 7) = BitVec.ofNat 8 (bitOf c) <<< 7 := by cases c <;> rfl
  rw [BitVec.ofNat_or, low, high, shiftRightIn]

/-- A left shift that shifts 0 in (45 R137). -/
theorem ofNat_shiftLeft : BitVec.ofNat 8 ((m.toNat <<< 1) % 256) = shiftLeftIn m false := by
  rw [← ofNat_shiftLeft_or, Bool.toNat_false, Nat.or_zero]

/-- A right shift that shifts 0 in (45 R138). -/
theorem ofNat_shiftRight : BitVec.ofNat 8 (m.toNat >>> 1) = shiftRightIn m false := by
  rw [← ofNat_shiftRight_or, Bool.toNat_false, Nat.zero_shiftLeft, Nat.or_zero]

/-- A left shift bit by bit: the bit shifted in at position 0, every other from the position below. -/
theorem getLsbD_shiftLeftIn {k : Nat} (hk : k < 8) :
    (shiftLeftIn m c).getLsbD k = if k = 0 then c else m.getLsbD (k - 1) := by
  rw [shiftLeftIn, BitVec.getLsbD_or, BitVec.getLsbD_shiftLeft, getLsbD_ofNat_bitOf]
  by_cases h0 : k = 0
  · simp [h0]
  · simp [h0, hk]

/-- A right shift bit by bit: the bit shifted in at position 7, every other from the position above. -/
theorem getLsbD_shiftRightIn {k : Nat} (hk : k < 8) :
    (shiftRightIn m c).getLsbD k = if k = 7 then c else m.getLsbD (k + 1) := by
  rw [shiftRightIn, BitVec.getLsbD_or, BitVec.getLsbD_ushiftRight, BitVec.getLsbD_shiftLeft, getLsbD_ofNat_bitOf,
    Nat.add_comm 1 k]
  by_cases h7 : k = 7
  · simp [h7]
  · have below : k < 7 := by omega
    simp [h7, below]

theorem bitOutLeft_eq : bitOutLeft m = m.getLsbD 7 := BitVec.msb_eq_getLsbD_last m

/-- Shifting right what was shifted left, with the bit shifted out shifted in again, gives the byte back. -/
theorem shiftRightIn_shiftLeftIn : shiftRightIn (shiftLeftIn m c) (bitOutLeft m) = m := by
  refine BitVec.eq_of_getLsbD_eq fun k hk => ?_
  rw [getLsbD_shiftRightIn _ _ hk]
  by_cases h7 : k = 7
  · rw [if_pos h7, bitOutLeft_eq, h7]
  · rw [if_neg h7, getLsbD_shiftLeftIn _ _ (by omega), if_neg (by omega), Nat.add_sub_cancel]

/-- The bit shifted in on the left shift is the one a right shift gives back. -/
theorem bitOutRight_shiftLeftIn : bitOutRight (shiftLeftIn m c) = c := getLsbD_shiftLeftIn m c (by decide)

end Byte

/-! The operation the four mnemonics share. -/

/-- The Carry is bit 0 of `SR` (10_state R16). -/
theorem State.flag_carry_eq (s : State) : s.flag .carry = s.sr.getLsbD 0 := s.flag_eq .carry

section ShiftMemory

variable {s : State} (ea : Address) (r : Word) (out : Bool)

/-- What an addressed form answers whose operation stores the shifted byte `r` and shifts `out` into Carry. -/
theorem State.AddressedForm.exec_shiftMemory {m : Mnemonic} {f : Instr × List Word × Address} (hf : s.AddressedForm m f)
    {r : Word} {out : Bool} (hperform : ∀ v, s.perform v f.2.2 m = s.shiftMemory f.2.2 r out) :
    ∃ mem' sr', Claims.StoresByte s.mem mem' f.2.2 r ∧ Claims.SrChanges s.sr sr' ((0, out) :: Claims.znBits r) ∧
      exec f.1 s = .next { s with mem := mem', sr := sr', pc := Claims.pcAfter s f.2.1 } :=
  hf.exec_memWrite_setSr (s.shiftMemory_srChanges f.2.2 r out) hperform

theorem State.memRead_shiftMemory (hwf : s.mem.wf = true) (b : Address) :
    (s.shiftMemory ea r out).memRead b = if b = ea then r else s.memRead b := State.memRead_memWrite hwf ea b r

theorem State.shiftMemory_wf (hwf : s.mem.wf = true) : (s.shiftMemory ea r out).mem.wf = true :=
  State.memWrite_wf hwf ea r

theorem State.flag_carry_shiftMemory : (s.shiftMemory ea r out).flag .carry = out :=
  (State.flag_assignFlag _ .carry .carry out).trans (if_pos rfl)

/-- A right rotation of the byte that was rotated left stores the old byte and shifts the old Carry out. -/
theorem State.ror_rol (hwf : s.mem.wf = true) :
    (s.rol ea).ror ea = (s.rol ea).shiftMemory ea (s.memRead ea) (s.flag .carry) := by
  have rotated : (s.rol ea).memRead ea = shiftLeftIn (s.memRead ea) (s.flag .carry) :=
    (State.memRead_shiftMemory ea _ _ hwf ea).trans (if_pos rfl)
  have carry : (s.rol ea).flag .carry = bitOutLeft (s.memRead ea) := State.flag_carry_shiftMemory ea _ _
  rw [State.ror, rotated, carry, shiftRightIn_shiftLeftIn, bitOutRight_shiftLeftIn]

/-- A left rotation and then a right one leave every byte of memory as it was (95 Q9). -/
theorem State.memRead_ror_rol (hwf : s.mem.wf = true) (b : Address) : ((s.rol ea).ror ea).memRead b = s.memRead b := by
  have rotatedWf : (s.rol ea).mem.wf = true := State.shiftMemory_wf ea _ _ hwf
  rw [State.ror_rol ea hwf, State.memRead_shiftMemory ea _ _ rotatedWf]
  by_cases hb : b = ea
  · rw [if_pos hb, hb]
  · rw [if_neg hb, State.rol, State.memRead_shiftMemory ea _ _ hwf, if_neg hb]

/-- A left rotation and then a right one leave the Carry as it was (95 Q9). -/
theorem State.flag_carry_ror_rol (hwf : s.mem.wf = true) : ((s.rol ea).ror ea).flag .carry = s.flag .carry := by
  rw [State.ror_rol ea hwf, State.flag_carry_shiftMemory]

end ShiftMemory

/-! The listed forms, one by one; all are in the generic family. -/

section Tables

variable (s : State) (d : Word) (a : Address)

theorem rolForms_addressedForm : ∀ f ∈ Claims.rolForms s d a,
    s.AddressedForm .rol f ∧ isGeneric (f.2.1.headD 0) = true :=
  List.forall_iff_forall_mem.1 (by dsimp only [Claims.rolForms, List.Forall, List.headD_cons]; and_intros <;> rfl)

theorem rorForms_addressedForm : ∀ f ∈ Claims.rorForms s d a,
    s.AddressedForm .ror f ∧ isGeneric (f.2.1.headD 0) = true :=
  List.forall_iff_forall_mem.1 (by dsimp only [Claims.rorForms, List.Forall, List.headD_cons]; and_intros <;> rfl)

theorem aslForms_addressedForm : ∀ f ∈ Claims.aslForms s d a,
    s.AddressedForm .asl f ∧ isGeneric (f.2.1.headD 0) = true :=
  List.forall_iff_forall_mem.1 (by dsimp only [Claims.aslForms, List.Forall, List.headD_cons]; and_intros <;> rfl)

theorem lsrForms_addressedForm : ∀ f ∈ Claims.lsrForms s d a,
    s.AddressedForm .lsr f ∧ isGeneric (f.2.1.headD 0) = true :=
  List.forall_iff_forall_mem.1 (by dsimp only [Claims.lsrForms, List.Forall, List.headD_cons]; and_intros <;> rfl)

end Tables

/-! The obligations. -/

/-- Settles O51: `rol` stores the byte shifted left with the old Carry in bit 0, and shifts bit 7 into Carry. -/
theorem rolRotatesTheMemoryByte : Obligations.RolRotatesTheMemoryByte := by
  simp only [Obligations.RolRotatesTheMemoryByte, ofNat_shiftLeft_or, ← bitOutLeft_eq, ← State.flag_carry_eq]
  refine ⟨fun s d a f hf => ?_, fun _ _ => rfl⟩
  obtain ⟨hform, hgeneric⟩ := rolForms_addressedForm s d a f hf
  exact ⟨hform.encode_eq, hgeneric, fun k hk => getLsbD_shiftLeftIn _ _ hk, hform.exec_shiftMemory fun _ => rfl⟩

/-- Settles O52: `ror` stores the byte shifted right with the old Carry in bit 7, and shifts bit 0 into Carry. -/
theorem rorRotatesTheMemoryByte : Obligations.RorRotatesTheMemoryByte := by
  simp only [Obligations.RorRotatesTheMemoryByte, ofNat_shiftRight_or, ← State.flag_carry_eq]
  refine ⟨fun s d a f hf => ?_, fun _ _ => rfl⟩
  obtain ⟨hform, hgeneric⟩ := rorForms_addressedForm s d a f hf
  exact ⟨hform.encode_eq, hgeneric, fun k hk => getLsbD_shiftRightIn _ _ hk, hform.exec_shiftMemory fun _ => rfl⟩

/-- Settles O53: `asl` stores the byte shifted left with 0 in bit 0, and shifts bit 7 into Carry. -/
theorem aslShiftsTheMemoryByte : Obligations.AslShiftsTheMemoryByte := by
  simp only [Obligations.AslShiftsTheMemoryByte, ofNat_shiftLeft, ← bitOutLeft_eq]
  refine ⟨fun s d a f hf => ?_, fun _ _ => rfl⟩
  obtain ⟨hform, hgeneric⟩ := aslForms_addressedForm s d a f hf
  exact ⟨hform.encode_eq, hgeneric, fun k hk => getLsbD_shiftLeftIn _ _ hk, hform.exec_shiftMemory fun _ => rfl⟩

/-- Settles O54: `lsr` stores the byte shifted right with 0 in bit 7, and shifts bit 0 into Carry. -/
theorem lsrShiftsTheMemoryByte : Obligations.LsrShiftsTheMemoryByte := by
  simp only [Obligations.LsrShiftsTheMemoryByte, ofNat_shiftRight]
  refine ⟨fun s d a f hf => ?_, fun _ _ => rfl⟩
  obtain ⟨hform, hgeneric⟩ := lsrForms_addressedForm s d a f hf
  exact ⟨hform.encode_eq, hgeneric, fun k hk => getLsbD_shiftRightIn _ _ hk, hform.exec_shiftMemory fun _ => rfl⟩

/-- Settles O55: the right rotation finds the rotated byte and its bit 7 in Carry, and stores and shifts out the old ones. -/
theorem rotateLeftThenRightRestores : Obligations.RotateLeftThenRightRestores := by
  intro s d hwf
  have carry := State.flag_carry_ror_rol (s.eaZeroPage d) hwf
  rw [State.flag_carry_eq, State.flag_carry_eq] at carry
  exact ⟨_, _, rfl, rfl, State.memRead_ror_rol (s.eaZeroPage d) hwf, carry⟩

end Sys2Proof.Machine
end

section
/-! SUPPORT. The flag instructions and nop (46_flag_and_nop): each listed form beside the assignment of one flag it makes, and
that assigning the same value again changes nothing; then the obligations of 46. -/

namespace Sys2Proof.Machine

/-- Assigning a flag the value it was just given changes nothing more (10_state R26). -/
theorem assignFlags_assignFlags (flags : Word) (c : Bool) (sr : Word) :
    assignFlags flags c (assignFlags flags c sr) = assignFlags flags c sr := by
  cases c
  case false => exact (BitVec.and_assoc ..).trans (congrArg (sr &&& ·) BitVec.and_self)
  case true => exact (BitVec.or_assoc ..).trans (congrArg (sr ||| ·) BitVec.or_self)

/-- What a listed form says with its flag `g`: `g` has the listed bit, and in every state the instruction assigns it the
listed value and advances past its one byte. -/
def AssignsFlag (f : Instr × Word × Nat × Bool) (g : Flag) : Prop :=
  encode f.1 = [f.2.1] ∧ flagPosition g = f.2.2.1 ∧
  ∀ s : State, exec f.1 s = .next ((s.assignFlag g f.2.2.2).advance 1)

/-- The listed flag instructions, one by one, with the flag of each: none is the Ignored bit. -/
theorem flagForms_assignsFlag : ∀ f ∈ Claims.flagForms, ∃ g, g ≠ .ignored ∧ AssignsFlag f g :=
  List.forall_iff_forall_mem.1
    ⟨⟨.carry, by decide, rfl, rfl, fun _ => rfl⟩,
     ⟨.carry, by decide, rfl, rfl, fun _ => rfl⟩,
     ⟨.decimal, by decide, rfl, rfl, fun _ => rfl⟩,
     ⟨.decimal, by decide, rfl, rfl, fun _ => rfl⟩,
     ⟨.interrupt, by decide, rfl, rfl, fun _ => rfl⟩,
     ⟨.interrupt, by decide, rfl, rfl, fun _ => rfl⟩,
     ⟨.overflow, by decide, rfl, rfl, fun _ => rfl⟩⟩

/-- The Ignored bit is bit 5 (10_state R16). -/
theorem flagPosition_eq_five_iff (g : Flag) : flagPosition g = 5 ↔ g = .ignored := by
  cases g <;> decide

/-! The obligations. -/

/-- Settles O56: each assigns one flag, and assigning it the same value again leaves `SR` as it is. -/
theorem flagInstructionsWriteOneBit : Obligations.FlagInstructionsWriteOneBit := by
  intro s f hf
  obtain ⟨g, hg, hencode, hposition, hexec⟩ := flagForms_assignsFlag f hf
  have hsr := (Claims.SrChanges.refl s.sr).assign g f.2.2.2
  rw [hposition] at hsr
  refine ⟨hencode, fun h5 => hg ((flagPosition_eq_five_iff g).1 (hposition.trans h5)), _, hsr, hexec s, ?_⟩
  have hpc : s.pc + 1 + 1 = s.pc + 2 := BitVec.add_assoc s.pc 1 1
  rw [hexec, State.assignFlag, assignFlags_assignFlags, ← hpc]
  rfl

/-- Settles O57: what decodes to `nop` starts with the byte `nop` is encoded with, and a step without a row raises. -/
theorem nopOnlyAdvances : Obligations.NopOnlyAdvances := by
  refine ⟨rfl, fun _ => rfl, fun op bytes rest h => ?_, fun s hop => ⟨_, step_of_unassigned hop⟩⟩
  exact (List.cons.inj (eq_encode_append_of_decode h)).1

end Sys2Proof.Machine
end

section
/-! SUPPORT. The step cycle (47_step_cycle): the two steps beside each other, `pc` behind the instruction that ran, and the bytes
a fetch takes from `pc` on; then the obligations of 47_step_cycle. -/

namespace Sys2Proof.Machine

/-! The step of a decoded instruction beside the step of the spec. -/

/-- The operand byte of a fetched instruction is the one the spec reads at the effective address (40 R77; log entry 8). -/
theorem operandValue_of_decode {s : State} {i : Instr} (h : decode s.fetchBytes = .ok (i, [])) :
    s.operandValue i = s.memRead ((s.effectiveAddress i).getD 0) := by
  unfold State.operandValue
  split
  case h_1 d hmode hd =>
    obtain rfl : s.memRead s.eaImmediate = d := Operand.byte.inj ((immediate_operand_of_decode h hmode).symm.trans hd)
    rw [← resolve_of_decode h, hmode]
    rfl
  case h_2 => rfl

/-- Where the bytes at `pc` decode, the spec's step runs the decoded instruction. -/
theorem specStep_of_decode {s : State} {i : Instr} (h : decode s.fetchBytes = .ok (i, [])) : specStep s = exec i s := by
  simp only [specStep, specDecode_of_decode h, resolve_of_decode h]
  rw [State.execute_eq_perform, ← operandValue_of_decode h, exec_eq_perform]

/-- On an unassigned byte the spec's step raises. -/
theorem specStep_of_unassigned {s : State} (h : decodeOpcode (s.memRead s.pc) = none) :
    specStep s = .fault (.unrecognizedOpcode s.pc (s.memRead s.pc)) := by
  simp only [specStep, specDecode, h]

/-! The Advance phase. -/

/-- An instruction leaves `pc` its width further on, modulo 65536 (47 R164). -/
theorem exec_pc {i : Instr} {s t : State} (h : exec i s = .next t) :
    t.pc.toNat = (s.pc.toNat + i.width) % 65536 := by
  rw [exec_next h, State.advance_pc, State.perform_pc, BitVec.toNat_add, BitVec.toNat_ofNat, Nat.add_mod_mod]

/-- Every width is 1, 2 or 3 (30 R50). -/
theorem width_cases (i : Instr) : i.width = 1 ∨ i.width = 2 ∨ i.width = 3 := by
  rw [Instr.width]
  cases i.mode <;> decide

/-! The bytes at `pc`. -/

/-- The bytes read from an address on lie at that address and the next ones, modulo 65536. -/
theorem State.getElem_readBytes (s : State) {n : Nat} {a : Address} {k : Nat} (hk : k < (s.readBytes n a).length) :
    (s.readBytes n a)[k] = s.memRead (a + BitVec.ofNat 16 k) := by
  induction n generalizing a k with
  | zero => cases hk
  | succ n ih =>
    cases k with
    | zero => simp [State.readBytes]
    | succ k =>
      have next : a + 1 + BitVec.ofNat 16 k = a + BitVec.ofNat 16 (k + 1) := by
        rw [BitVec.add_assoc, Nat.add_comm k 1, BitVec.ofNat_add]
        rfl
      rw [← next]
      exact ih _

/-- A fetch reads from `pc` on as many bytes as the opcode byte says (20 R37). -/
theorem State.fetchBytes_eq_readBytes (s : State) :
    s.fetchBytes = s.readBytes (1 + operandCount (s.memRead s.pc)) s.pc := by
  rw [Nat.add_comm]
  rfl

/-- A fetch takes exactly the bytes of an instruction that lie at `pc` and the next addresses modulo 65536 (47 R160, R165). -/
theorem fetchBytes_eq_encode {s : State} {i : Instr}
    (h : ∀ k, (hk : k < (encode i).length) → s.memRead (s.pc + BitVec.ofNat 16 k) = (encode i)[k]) :
    s.fetchBytes = encode i := by
  obtain ⟨op, -, hencode, -, -⟩ := exists_row i
  have hop : s.memRead s.pc = (encode i).headD 0 := by
    simpa [hencode] using h 0 (by simp [hencode])
  rw [State.fetchBytes_eq_readBytes, hop, ← length_encode]
  exact List.ext_getElem (s.length_readBytes _ _) fun k hk hk' => (s.getElem_readBytes hk).trans (h k hk')

/-- Where the bytes at `pc` decode, the step is the decoded instruction. -/
theorem step_of_decode {s : State} {i : Instr} {rest : List Word} (h : decode s.fetchBytes = .ok (i, rest)) :
    step s = exec i s := by
  simp only [step, h]

/-! The obligations. -/

/-- Settles O20: where the byte at `pc` has a row both run the decoded instruction, and elsewhere both raise. -/
theorem stepIsTheSpecStep : Obligations.StepIsTheSpecStep := by
  intro s
  rcases step_cases s with ⟨i, hdecode, hstep⟩ | ⟨hop, hstep⟩
  · rw [hstep, specStep_of_decode hdecode]
  · rw [hstep, specStep_of_unassigned hop]

/-- Settles O21: a step that finds a row runs an instruction, which completes; the listed bytes are those without a row. -/
theorem stepReturnsOrRaises : Obligations.StepReturnsOrRaises := by
  intro s
  rw [← decodeOpcode_eq_none_iff]
  constructor
  · intro hassigned
    rcases step_cases s with ⟨i, -, hstep⟩ | ⟨hop, -⟩
    · rw [exec_eq_perform] at hstep
      exact ⟨_, hstep, stepIsTheSpecStep s ▸ hstep, by simp only [State.hostStep, hstep]⟩
    · exact absurd hop hassigned
  · intro hop
    have hstep := step_of_unassigned hop
    exact ⟨_, hstep, by simp only [State.hostStep, hstep]⟩

/-- Settles O22: every instruction is its operation, which leaves `pc` alone, then Advance by its width. -/
theorem pcAdvancesByTheWidthOnly : Obligations.PcAdvancesByTheWidthOnly := by
  refine ⟨fun i s => ⟨_, exec_eq_perform i s, exec_pc (exec_eq_perform i s)⟩, width_cases, fun s t hstep => ?_,
    by decide⟩
  obtain ⟨i, hdecode, hexec⟩ := step_next s hstep
  exact ⟨i, hdecode, exec_pc hexec⟩

/-- Settles O19: the bytes of an instruction at `pc` are what a step fetches, and they decode to it. -/
theorem stepRunsTheDecodedInstruction : Obligations.StepRunsTheDecodedInstruction := by
  refine ⟨fun s i rest => step_of_decode, fun s i hbytes => ?_⟩
  have hfetch := fetchBytes_eq_encode hbytes
  have hdecode := decode_encode i []
  rw [List.append_nil, ← hfetch] at hdecode
  exact ⟨hfetch, step_of_decode hdecode⟩

/-- Settles O23: `pc` and the operand addresses are sums modulo 65536, and no width is above 3. -/
theorem instructionStreamWraps : Obligations.InstructionStreamWraps := by
  refine fun s => ⟨fun i t hexec htop => ?_, fun htop => ⟨?_, ?_, fun i t hexec => ?_⟩⟩
  · apply BitVec.eq_of_toNat_eq
    rw [exec_pc hexec, htop]
    rfl
  · rw [State.operandByte, htop]
    rfl
  · rw [State.operandWord, htop]
    rfl
  · have hpc := exec_pc hexec
    have hwidth := width_cases i
    rw [htop, show (0xFFFF : Address).toNat = 65535 from rfl] at hpc
    omega

end Sys2Proof.Machine
end

section
/-! SUPPORT. Construction (70_reset_and_hazards R196, 92 D9): which outcome it has and when; the host's step on an error
(60_exceptions R179, R180); then the obligations of 60 and 70. -/

namespace Sys2Proof.Machine

/-! Construction. -/

/-- With the decimal option absent, construction gives the supplied values, bit 5 of `SR` set (70 R196). -/
theorem construct_of_absent {init : Config.Init} (h : init.bcd = .absent) : State.construct init =
    .next ⟨init.pc, init.ac, init.x, init.y, init.sp, init.sr ||| 0x20, Memory.ofImage init.mem⟩ := by
  simp only [State.construct, h]

/-- With the decimal option present, construction is refused (92 D9). -/
theorem construct_of_present {init : Config.Init} (h : init.bcd = .present) :
    State.construct init = .refused .bcdOptionPresent := by
  simp only [State.construct, h]

/-- A construction that answers a state had the decimal option absent. -/
theorem absent_of_construct_next {init : Config.Init} {t : State} (h : State.construct init = .next t) :
    init.bcd = .absent := by
  cases hbcd : init.bcd with
  | absent => rfl
  | present =>
    rw [construct_of_present hbcd] at h
    cases h

/-- A refused construction had the decimal option present. -/
theorem present_of_construct_refused {init : Config.Init} {r : Refusal} (h : State.construct init = .refused r) :
    init.bcd = .present := by
  cases hbcd : init.bcd with
  | absent =>
    rw [construct_of_absent hbcd] at h
    cases h
  | present => rfl

/-- A run starts from a construction that answered, so the decimal option was absent. -/
theorem Reachable.absent {init : Config.Init} {s : State} (h : Reachable init s) : init.bcd = .absent := by
  induction h with
  | constructed s hs => exact absent_of_construct_next hs
  | stepped s t _ _ ih => exact ih

/-! The host's step. -/

/-- The host's step raises exactly when the step does, and leaves the state it was called on (60 R175, R179). -/
theorem State.hostStep_eq_fault_iff {s t : State} {e : Fault} :
    s.hostStep = (.fault e, t) ↔ step s = .fault e ∧ t = s := by
  unfold State.hostStep
  split
  case h_1 u hstep => simp [hstep]
  case h_2 f hstep => simp [hstep, eq_comm]
  case h_3 r hstep => simp [hstep]

/-! The obligations. -/

/-- Settles O13: bit 5 is assigned as the Ignored flag would be, and the memory of an image reads the image. -/
theorem constructionGivesTheSuppliedState : Obligations.ConstructionGivesTheSuppliedState := by
  intro init habsent
  refine ⟨_, construct_of_absent habsent, rfl, rfl, rfl, rfl, rfl, rfl, ?_, fun a => ?_⟩
  · exact (Claims.SrChanges.refl init.sr).assign .ignored true
  · exact Memory.ofImage_read init.mem a.isLt

/-- Settles O15: the memory of TYPICAL_INIT lists nothing, and every constructed state meets the invariant. -/
theorem resetIsATypicalConstruction : Obligations.ResetIsATypicalConstruction := by
  have hconstruct : State.construct (Config.typicalInit Config.resetPc) = .next State.reset := by
    rw [construct_of_absent rfl, Memory.ofImage_typical]
    rfl
  exact ⟨hconstruct, constructedStateMeetsTheInvariant _ _ hconstruct⟩

/-- Settles O24: an error leaves the state, so the next call is the same step. -/
theorem errorRepeatsOnTheSameState : Obligations.ErrorRepeatsOnTheSameState := by
  intro s t e h
  obtain ⟨-, rfl⟩ := State.hostStep_eq_fault_iff.1 h
  exact ⟨rfl, h⟩

/-- Settles O58: the two values of the option have the two outcomes, and every run starts from a construction. -/
theorem constructionRefusesTheDecimalOption : Obligations.ConstructionRefusesTheDecimalOption := fun _ =>
  ⟨⟨present_of_construct_refused, construct_of_present⟩,
   ⟨fun ⟨_, h⟩ => absent_of_construct_next h, fun h => ⟨_, construct_of_absent h⟩⟩,
   fun _ => Reachable.absent⟩

end Sys2Proof.Machine
end
